-- ==== Sys2Proof/Word.lean ====
section
/-! DEFINITION. The values of spec/00_scope.md rule R9: a bit, an unsigned 8-bit byte, and the 16-bit command word
of spec/30_encoding.md rule R60. No value of this hardware is signed. -/

namespace Sys2Proof

/-- A bit, `0` or `1` (R9): `false` is 0 and `true` is 1. -/
abbrev Bit := Bool

/-- An unsigned 8-bit value (R9). -/
abbrev Byte := BitVec 8

/-- A command word, delivered to the block whole (R43, R60). -/
abbrev Word := BitVec 16

end Sys2Proof
end

