-- ==== Sys2Proof/Syntax.lean ====
section
/-! DEFINITION. The commands of the block, one constructor per row of spec/opcode_table.json (spec/30_encoding.md
rule R62), the three sub-blocks they belong to (R60), the four operand forms (R61) and the decoder's reasons for
refusing a word (R69). -/

namespace Sys2Proof

/-- A command of the block (R62). Register and line names are part of the mnemonic, not operands (R64). -/
inductive Instr where
  /-- `DRIVE_LOW.SCL` (R80). -/
  | driveLowScl
  /-- `RELEASE.SCL` (R81). -/
  | releaseScl
  /-- `DRIVE_LOW.SDA` (R82). -/
  | driveLowSda
  /-- `RELEASE.SDA` (R83). -/
  | releaseSda
  /-- `SENSE.SDA` (R84). -/
  | senseSda
  /-- `WAIT_Q` (R90). -/
  | waitQ
  /-- `WAIT_MS n` (R91): `n` is a count, 0 to 255 in a well-formed command. -/
  | waitMs (n : Nat)
  /-- `WAIT_S n` (R92): `n` is a count, 0 to 255 in a well-formed command. -/
  | waitS (n : Nat)
  /-- `IDLE` (R100). -/
  | idle
  /-- `START` (R101). -/
  | start
  /-- `WRITE_BIT b` (R103). -/
  | writeBit (b : Bit)
  /-- `WRITE_BYTE v` (R105). -/
  | writeByte (v : Byte)
  /-- `STOP` (R107). -/
  | stop
  deriving DecidableEq, Repr

/-- The sub-blocks of R2, which the field `GRP` of a command word names (R60). -/
inductive SubBlock where
  /-- The Bus Line Driver, `GRP = 0x1`. -/
  | lineDriver
  /-- The Timing Primitive, `GRP = 0x2`. -/
  | timing
  /-- The I2C Transaction Engine, `GRP = 0x3`. -/
  | engine
  deriving DecidableEq, Repr

/-- The operand forms of R61. -/
inductive ArgForm where
  /-- No operand: `ARG` must be `0x00`. -/
  | none
  /-- One bit: `ARG` is `0x00` or `0x01`. -/
  | bit
  /-- An unsigned byte: every `ARG`. -/
  | byte
  /-- An unsigned count: every `ARG`. -/
  | count
  deriving DecidableEq, Repr

/-- Why the decoder gives a word no meaning (R69). -/
inductive WordRefusal where
  /-- `OP` is not in the opcode map. -/
  | reservedOpcode
  /-- A `NONE` opcode with a nonzero `ARG`. -/
  | nonzeroArg
  /-- A `BIT` opcode with `ARG[7:1]` nonzero. -/
  | bitArgRange
  deriving DecidableEq, Repr

/-- The sub-block a command belongs to (R62). -/
def Instr.subBlock : Instr → SubBlock
  | .driveLowScl => .lineDriver
  | .releaseScl => .lineDriver
  | .driveLowSda => .lineDriver
  | .releaseSda => .lineDriver
  | .senseSda => .lineDriver
  | .waitQ => .timing
  | .waitMs _ => .timing
  | .waitS _ => .timing
  | .idle => .engine
  | .start => .engine
  | .writeBit _ => .engine
  | .writeByte _ => .engine
  | .stop => .engine

/-- A row of the opcode map (R62): the opcode, its operand form, and the command it names for an `ARG` of that
form. -/
structure OpcodeRow where
  op : Byte
  form : ArgForm
  command : Byte → Instr

end Sys2Proof
end

