-- ==== Sys2Proof/Machine/Operands.lean ====
section
/-! DEFINITION. The operand forms of spec/30_encoding.md rules R61 and R63: which `ARG` each form admits, the value it
passes on, and the bits of the word each form fixes. -/

namespace Sys2Proof.Machine

/-- The decoder's check of `ARG` against the opcode's form (R69): the refusal, or nothing where the form admits it. -/
def argRefusal (form : ArgForm) (arg : Byte) : Option WordRefusal :=
  match form with
  | .none => if arg = 0x00#8 then none else some .nonzeroArg
  | .bit => if arg.extractLsb' 1 7 = 0#7 then none else some .bitArgRange
  | .byte => none
  | .count => none

/-- Form BIT (R61): `b = ARG[0]`. -/
def argBit (arg : Byte) : Bit := arg.getLsbD 0

/-- Form BYTE (R61): `v = ARG`. -/
def argByte (arg : Byte) : Byte := arg

/-- Form COUNT (R61): `n = zext(ARG)`, unsigned. -/
def argCount (arg : Byte) : Nat := arg.toNat

/-- The mask of a form (R63): the bits of the word that the opcode fixes. -/
def formMask (form : ArgForm) : Word :=
  match form with
  | .none => 0xFFFF#16
  | .bit => 0xFFFE#16
  | .byte => 0xFF00#16
  | .count => 0xFF00#16

/-- Bit `i` of a byte, bit 0 the least significant (R9). -/
def byteBit (v : Byte) (i : Nat) : Bit := v.getLsbD i

end Sys2Proof.Machine
end

