-- ==== Sys2Proof/Config.lean ====
section
/-! DEFINITION. What the spec leaves open and fixes per machine (spec/00_scope.md rule R7), and the free values: the
environment's answers (spec/10_state.md rule R24) and the level sensed on a line nothing has driven yet
(spec/40_line_driver.md rule R84). The opaque constants have no body, so a statement about them holds for every value. -/

namespace Sys2Proof

/-- `RELEASE_ORDER` (R7): the order of the two releases of IDLE and START. The machine's order is the field
`releaseOrder` of State (log entry 6). -/
inductive Config.ReleaseOrder where
  /-- The default the rules are written for. -/
  | sdaFirst
  | sclFirst
  deriving DecidableEq, Repr

/-- `PULLUP_KIND` (R7): where the pull-up stands. -/
inductive Config.PullupKind where
  | external
  | internal
  deriving DecidableEq, Repr, Inhabited

/-- FREE VALUE (log entry 4): the answer of the environment to the draw numbered `k`, where the state lists no answer
of its own. `EnvSDA()` of R24: the spec places no law on it. -/
opaque Config.envSda : Nat → Bit

/-- FREE VALUE (log entry 5): the level sensed at the draw numbered `k` while `drv[SDA]` is `Unknown` (R84: "a free
draw"). -/
opaque Config.unknownSda : Nat → Bit

/-- `T_Q` (R7, R94): the bus quantum, a fixed positive duration; only Machine/Observe.lean's lower bound reads it. -/
opaque Config.busQuantum : ℕ+

/-- `T_MS` (R7, R94): the time one unit of WAIT_MS takes, nominally 1 ms, its accuracy open; in the unit of time `T_Q`
is given in, and related to `T_Q` by nothing (D29). Only Machine/Observe.lean's lower bound reads it. -/
opaque Config.msUnit : Nat

/-- `T_S` (R7, R94): the time one unit of WAIT_S takes, nominally 1 s, its accuracy open; as `T_MS` otherwise. -/
opaque Config.secUnit : Nat

/-- `F_OSC` (R7): the oscillator the delay constants are calibrated against; no rule reads it. -/
opaque Config.oscillator : ℕ+

/-- `PULLUP_KIND` (R7): no rule reads it (D21). -/
opaque Config.pullupKind : Config.PullupKind

/-- `NO_STRETCH` (R7): no device holds `SCL` low longer than `T_Q`. A premise of claims about what the panel
receives, never a parameter of a rule. -/
opaque Config.noStretch : Prop

/-- `T_Q_SUFFICES` (R7): `T_Q` meets the panel's minimum timing. A premise as `noStretch` is. -/
opaque Config.quantumSuffices : Prop

end Sys2Proof
end

