-- ==== Sys2Proof/Machine/State.lean ====
section
/-! DEFINITION. The state of spec/10_state.md rule R20, all of it: the drive state of the two lines, the result
register, the event log, the model bookkeeping the spec lists, and the host's command list and its index; beside it the
model's own three fields (the release order, the environment's answers, the draw counter). No memory: the block has
none (spec/20_memory.md rule R40). -/

namespace Sys2Proof.Machine

/-- The two bus lines (R10). -/
inductive Line where
  /-- The clock line. -/
  | scl
  /-- The data line. -/
  | sda
  deriving DecidableEq, Repr

/-- The host-side drive state of a line (R10, R22). There is no state in which the host drives a line high. -/
inductive Drive where
  /-- The host's output is enabled and asserts logical 0. -/
  | low
  /-- The host's output is disconnected; the pull-up and the bus decide the level. -/
  | released
  /-- Nothing has written the line yet: the spec's third value, which no command writes (R31, D6). -/
  | unknown
  deriving DecidableEq, Repr

/-- The values of the result register `RES` (R20, R26). -/
inductive ResultValue where
  | zero
  | one
  /-- Neither a WRITE_BYTE nor a SENSE has run yet: the spec's third value (R31, D7). -/
  | unknown
  deriving DecidableEq, Repr

/-- The events of the log (R27). -/
inductive Event where
  /-- `D(l, d)`: the host set line `l` to drive state `d`. -/
  | act (l : Line) (d : Drive)
  /-- `Q`: one bus quantum elapsed with no line action. -/
  | q
  /-- `MS(n)`: nominally `n` milliseconds elapsed with no line action. -/
  | ms (n : Nat)
  /-- `SEC(n)`: nominally `n` seconds elapsed with no line action. -/
  | sec (n : Nat)
  /-- `SMP(b)`: the block read `SDA` and saw level `b`. -/
  | smp (b : Bit)
  deriving DecidableEq, Repr

/-- The caller-obligation flags of R150. -/
inductive Flag where
  /-- START during an unfinished byte (R151). -/
  | v1
  /-- A host-issued data change with the clock not held low (R152). -/
  | v2
  /-- A bit or byte written with the clock not held low (R153). -/
  | v3
  /-- Two transitions with no wait between (R154). -/
  | v4
  deriving DecidableEq, Repr

/-- The state of the machine (R20). -/
structure State where
  /-- `drv[SCL]`, block state. -/
  drvScl : Drive
  /-- `drv[SDA]`, block state. -/
  drvSda : Drive
  /-- `RES`, block state. -/
  res : ResultValue
  /-- `LOG`, the observation, oldest event first. -/
  log : List Event
  /-- `V1`, bookkeeping. -/
  v1 : Bool
  /-- `V2`, bookkeeping. -/
  v2 : Bool
  /-- `V3`, bookkeeping. -/
  v3 : Bool
  /-- `V4`, bookkeeping. -/
  v4 : Bool
  /-- `bits_pending`, bookkeeping. -/
  bitsPending : Nat
  /-- `settled`, bookkeeping. -/
  settled : Bool
  /-- `REFUSED`, bookkeeping. -/
  refused : Bool
  /-- `pc`, host state: the index of the next command in the host's list (R30). -/
  pc : Nat
  /-- The host's command list (R5, R30): the words it has issued so far. -/
  cmds : List Word
  /-- The parameter `RELEASE_ORDER` (R7), which no command writes (log entry 6). -/
  releaseOrder : Config.ReleaseOrder
  /-- The MODEL's own field: the next answers of the environment, first first (R24; log entry 4). -/
  envAnswers : List Bit
  /-- The MODEL's own field: how many levels have been drawn, the index of the free values (log entry 4). -/
  draws : Nat
  deriving DecidableEq, Repr

/-- Why the machine stops with a fault. The block itself raises none (R120), and `step` never answers one. -/
inductive Fault where
  /-- The host read `RES` while it is `Unknown` (R26, D7). Raised by Machine/HostPort.lean's `readRes`, by no command.
  Safe: the spec asks for the fault. -/
  | readUnknownResult
  deriving DecidableEq, Repr

/-- Why a step has no meaning. -/
inductive Refusal where
  /-- An instruction without a meaning, raised by `exec`'s refused arms; none is left. Safe. -/
  | notModelled (mnemonic : String)
  /-- The run ended at a word the decoder refused (R70, R145), raised by `fetch` once `REFUSED` is set. Safe. -/
  | reservedWord (why : WordRefusal)
  /-- `REFUSED` is set though the next word is no refused one (R70: the run has no further step), raised by `fetch`; no
  run from reset reaches it. Safe. -/
  | runOver
  /-- The host has no further command to issue (R145), raised by `fetch`. Safe. -/
  | noCommand
  deriving DecidableEq, Repr

/-- What a command answers. -/
abbrev Answer := Host.Outcome State Fault Refusal

/-- The state at the start of a run (R31, R140). `cmds`, `envAnswers`, `draws` are DESIGN CHOICE (log entries 2 and 4);
`releaseOrder` is the spec's default (R7, log entry 6). -/
def State.reset : State where
  drvScl := .unknown
  drvSda := .unknown
  res := .unknown
  log := []
  v1 := false
  v2 := false
  v3 := false
  v4 := false
  bitsPending := 0
  settled := true
  refused := false
  pc := 0
  cmds := []
  releaseOrder := .sdaFirst
  envAnswers := []
  draws := 0

end Sys2Proof.Machine
end

