-- ==== Sys2Proof/Machine/Ops.lean ====
section
/-! DEFINITION. The primitives of spec/00_scope.md rule R11 over State, and the operations the commands share: a line
action, a delay, a sample of `SDA`, the bit slot (spec/42_engine.md rule R113), completing a command. There is no
operation for taking an exception and none for returning from one: the block raises none (spec/60_exceptions.md rules
R120, R126, R127). -/

namespace Sys2Proof.Machine

/-! ### Reading and writing the fields -/

/-- `drv[l]` (R21). -/
def drv (l : Line) (s : State) : Drive :=
  match l with
  | .scl => s.drvScl
  | .sda => s.drvSda

/-- `drv[l] <- d` (R11). -/
def setDrv (l : Line) (d : Drive) (s : State) : State :=
  match l with
  | .scl => { s with drvScl := d }
  | .sda => { s with drvSda := d }

/-- `emit(e)` (R11): append to the log. -/
def emit (e : Event) (s : State) : State := { s with log := s.log ++ [e] }

/-- `settled <- b` (R28). -/
def setSettled (b : Bool) (s : State) : State := { s with settled := b }

/-- The value of `RES` that stands for a bit (R26). -/
def resultOf (b : Bit) : ResultValue := if b then .one else .zero

/-- `RES <- b` (R11). -/
def setRes (b : Bit) (s : State) : State := { s with res := resultOf b }

/-- `bits_pending <- n` (R151). -/
def setBitsPending (n : Nat) (s : State) : State := { s with bitsPending := n }

/-- `if c: flag(f)` (R11): the flags are sticky (R28). -/
def flagIf (f : Flag) (c : Bool) (s : State) : State :=
  match f with
  | .v1 => { s with v1 := s.v1 || c }
  | .v2 => { s with v2 := s.v2 || c }
  | .v3 => { s with v3 := s.v3 || c }
  | .v4 => { s with v4 := s.v4 || c }

/-- `REFUSED <- true` (R70). -/
def markRefused (s : State) : State := { s with refused := true }

/-- A command that completes advances `pc` by 1 (R30). -/
def complete (s : State) : State := { s with pc := s.pc + 1 }

/-- One level has been drawn: the environment's listed answer is used up and the draw counter moves on. -/
def drawn (s : State) : State := { s with envAnswers := s.envAnswers.tail, draws := s.draws + 1 }

/-- One level has been drawn that no bus environment answered (`drv[SDA]` is `Unknown`): only the counter moves on. -/
def drawnFree (s : State) : State := { s with draws := s.draws + 1 }

/-! ### The primitives -/

/-- `trans(l, d)` (R27, spec/40_line_driver.md): the action changes the line's drive state. True from `Unknown` (D23),
since no action writes `Unknown`. -/
def trans (l : Line) (d : Drive) (s : State) : Bool := drv l s != d

/-- `settled` after a line action: false after a transition, else as it was (R28). -/
def unsettleIf (t : Bool) (s : State) : State := setSettled (s.settled && !t) s

/-- `Drive(l, d)` (R11) with its bookkeeping: the event is logged whether or not it is a transition (R27). -/
def drive (l : Line) (d : Drive) (s : State) : State :=
  unsettleIf (trans l d s) (emit (.act l d) (setDrv l d s))

/-- A wait: its event, and `settled <- true` (R28, R95). -/
def wait (e : Event) (s : State) : State := setSettled true (emit e s)

/-- `Delay()` (R90). -/
def delay (s : State) : State := wait .q s

/-- `EnvSDA()` (R24): the next answer the state lists, and past the end of that list a free value. -/
def envBit (s : State) : Bit := s.envAnswers.headD (Config.envSda s.draws)

/-- The level `Sample()` reads (R84): 0 while the host drives `SDA` low, the environment's answer while it is released,
a free value while nothing has driven it. -/
def sampleBit (s : State) : Bit :=
  match s.drvSda with
  | .low => false
  | .released => envBit s
  | .unknown => Config.unknownSda s.draws

/-- The draw `Sample()` makes, if any (R84). -/
def afterDraw (s : State) : State :=
  match s.drvSda with
  | .low => s
  | .released => drawn s
  | .unknown => drawnFree s

/-- `Sample()` (R84): the state after it; the bit it returns is `sampleBit`. -/
def sample (s : State) : State := emit (.smp (sampleBit s)) (afterDraw s)

/-- "Release both lines", in the machine's release order (R7, R100, R101). -/
def releaseBoth (s : State) : State :=
  match s.releaseOrder with
  | .sdaFirst => drive .scl .released (drive .sda .released s)
  | .sclFirst => drive .sda .released (drive .scl .released s)

/-- The drive state that puts a data bit on `SDA` (R113): never driven high. -/
def dataDrive (b : Bit) : Drive := if b then .released else .low

/-- `bit_slot(b)` (R113). -/
def bitSlot (b : Bit) (s : State) : State :=
  delay (drive .scl .low (delay (drive .scl .released (delay (drive .sda (dataDrive b) s)))))

/-- `for i = k - 1 downto 0: bit_slot(v[i])` (R105). -/
def bitSlotsDown (v : Byte) : Nat → State → State
  | 0, s => s
  | k + 1, s => bitSlotsDown v k (bitSlot (byteBit v k) s)

/-- The acknowledgment outcome of a sampled bit (R106): acknowledged when it is 0. -/
def acknowledged (x : Bit) : Bit := !x

/-! ### The host's command list -/

/-- The word the host issues next, if its list has one (R30). -/
def commandWord (s : State) : Option Word := s.cmds[s.pc]?

end Sys2Proof.Machine
end

