-- ==== Sys2Proof/Machine/Flags.lean ====
section
/-! DEFINITION. The caller-obligation monitors of spec/70_reset_and_hazards.md rules R150 to R154. Each looks at the
state before the command's first line action (spec/60_exceptions.md rule R125) and changes nothing but its flag (R123). -/

namespace Sys2Proof.Machine

/-- `V1` (R151), START: a bit was written since the last frame boundary. -/
def monitorV1 (s : State) : State := flagIf .v1 (s.bitsPending != 0) s

/-- `V2` (R152), a host-issued `SDA` action: a transition while `drv[SCL]` is not `Low` (`Unknown` counts as not `Low`,
D23). -/
def monitorV2 (d : Drive) (s : State) : State := flagIf .v2 (trans .sda d s && s.drvScl != .low) s

/-- `V3` (R153), WRITE_BIT and WRITE_BYTE: entered while `drv[SCL]` is not `Low`. -/
def monitorV3 (s : State) : State := flagIf .v3 (s.drvScl != .low) s

/-- `V4` (R154), a host-issued line action: a transition while `settled` is false. -/
def monitorV4 (l : Line) (d : Drive) (s : State) : State := flagIf .v4 (trans l d s && !s.settled) s

end Sys2Proof.Machine
end

