-- ==== Sys2Proof/Machine/Engine.lean ====
section
/-! DEFINITION. The I2C Transaction Engine commands (spec/42_engine.md). The delays are exactly those each description
lists (R110); the line actions are never checked against `V2` or `V4`. -/

namespace Sys2Proof.Machine

/-- `IDLE` (R100): no delay follows. -/
def execIdle (s : State) : Answer := .next (complete (setBitsPending 0 (releaseBoth s)))

/-- `START` (R101). -/
def execStart (s : State) : Answer :=
  let idle := delay (releaseBoth (monitorV1 s))
  let condition := delay (drive .sda .low idle)
  .next (complete (setBitsPending 0 (delay (drive .scl .low condition))))

/-- `WRITE_BIT b` (R103). -/
def execWriteBit (b : Bit) (s : State) : Answer :=
  .next (complete (setBitsPending (s.bitsPending + 1) (bitSlot b (monitorV3 s))))

/-- The acknowledgment read of WRITE_BYTE up to its sample (R105): the host lets go of `SDA`, then raises the clock. -/
def ackWindow (s : State) : State :=
  delay (drive .scl .released (delay (drive .sda .released s)))

/-- `WRITE_BYTE v` (R105): bit 7 first, then the acknowledgment read. -/
def execWriteByte (v : Byte) (s : State) : Answer :=
  let window := ackWindow (bitSlotsDown v 8 (monitorV3 s))
  let closed := delay (drive .scl .low (sample window))
  .next (complete (setBitsPending 0 (setRes (acknowledged (sampleBit window)) closed)))

/-- `STOP` (R107). -/
def execStop (s : State) : Answer :=
  let low := delay (drive .sda .low s)
  let high := delay (drive .scl .released low)
  .next (complete (setBitsPending 0 (delay (drive .sda .released high))))

end Sys2Proof.Machine
end

