-- ==== Sys2Proof/Machine/LineDriver.lean ====
section
/-! DEFINITION. The Bus Line Driver commands (spec/40_line_driver.md). None of them can fail (R85) and none inserts a
delay (R86). -/

namespace Sys2Proof.Machine

/-- `DRIVE_LOW.SCL` (R80). -/
def execDriveLowScl (s : State) : Answer :=
  .next (complete (drive .scl .low (monitorV4 .scl .low s)))

/-- `RELEASE.SCL` (R81). -/
def execReleaseScl (s : State) : Answer :=
  .next (complete (drive .scl .released (monitorV4 .scl .released s)))

/-- `DRIVE_LOW.SDA` (R82). -/
def execDriveLowSda (s : State) : Answer :=
  .next (complete (drive .sda .low (monitorV4 .sda .low (monitorV2 .low s))))

/-- `RELEASE.SDA` (R83). -/
def execReleaseSda (s : State) : Answer :=
  .next (complete (drive .sda .released (monitorV4 .sda .released (monitorV2 .released s))))

/-- `SENSE.SDA` (R84): `RES` takes the level itself. -/
def execSenseSda (s : State) : Answer :=
  .next (complete (setRes (sampleBit s) (sample s)))

end Sys2Proof.Machine
end

