-- ==== Sys2Proof/Machine/Timing.lean ====
section
/-! DEFINITION. The Timing Primitive commands (spec/41_timing.md). They change no drive state and do not write `RES`
(R93); no duration is state (R94). -/

namespace Sys2Proof.Machine

/-- `WAIT_Q` (R90). -/
def execWaitQ (s : State) : Answer := .next (complete (delay s))

/-- `WAIT_MS n` (R91). -/
def execWaitMs (n : Nat) (s : State) : Answer := .next (complete (wait (.ms n) s))

/-- `WAIT_S n` (R92). -/
def execWaitS (n : Nat) (s : State) : Answer := .next (complete (wait (.sec n) s))

end Sys2Proof.Machine
end

