-- ==== Sys2Proof/Machine/Dispatch.lean ====
section
/-! DEFINITION. One arm per command, each one call of its meaning. -/

namespace Sys2Proof.Machine

def exec (i : Instr) (s : State) : Host.Outcome State Fault Refusal :=
  match i with
  | .driveLowScl => Sys2Proof.Machine.execDriveLowScl s
  | .releaseScl => Sys2Proof.Machine.execReleaseScl s
  | .driveLowSda => Sys2Proof.Machine.execDriveLowSda s
  | .releaseSda => Sys2Proof.Machine.execReleaseSda s
  | .senseSda => Sys2Proof.Machine.execSenseSda s
  | .waitQ => Sys2Proof.Machine.execWaitQ s
  | .waitMs n => Sys2Proof.Machine.execWaitMs n s
  | .waitS n => Sys2Proof.Machine.execWaitS n s
  | .idle => Sys2Proof.Machine.execIdle s
  | .start => Sys2Proof.Machine.execStart s
  | .writeBit b => Sys2Proof.Machine.execWriteBit b s
  | .writeByte v => Sys2Proof.Machine.execWriteByte v s
  | .stop => Sys2Proof.Machine.execStop s

end Sys2Proof.Machine
end

