-- ==== Sys2Proof/WellFormed.lean ====
section
/-! DEFINITION. Which commands a command word can name: the one check the types of Sys2Proof/Syntax.lean do not make
is the range of a wait's count (spec/30_encoding.md rule R61, form COUNT; spec/00_scope.md rule R7, `WAIT_ARG_MAX`). -/

namespace Sys2Proof

/-- `WAIT_ARG_MAX` (R7). -/
abbrev waitArgMax : Nat := 255

/-- A command that some command word names: a wait's count is at most `WAIT_ARG_MAX` (R61). -/
def Instr.wellFormed : Instr → Bool
  | .driveLowScl => true
  | .releaseScl => true
  | .driveLowSda => true
  | .releaseSda => true
  | .senseSda => true
  | .waitQ => true
  | .waitMs n => decide (n ≤ waitArgMax)
  | .waitS n => decide (n ≤ waitArgMax)
  | .idle => true
  | .start => true
  | .writeBit _ => true
  | .writeByte _ => true
  | .stop => true

end Sys2Proof
end

