-- ==== Sys2Proof/Decode.lean ====
section
/-! DEFINITION. The decoder of spec/30_encoding.md rule R69, total on every 16-bit word and refusing by name, and the
encoder written from the same opcode map (R62). -/

namespace Sys2Proof

/-- The opcode field `w[15:8]` (R60). -/
def opField (w : Word) : Byte := w.extractLsb' 8 8

/-- The operand field `w[7:0]` (R60). -/
def argField (w : Word) : Byte := w.extractLsb' 0 8

/-- The complete opcode map (R62). -/
def opcodeMap : List OpcodeRow :=
  [ ⟨0x10#8, .none, fun _ => .driveLowScl⟩,
    ⟨0x11#8, .none, fun _ => .releaseScl⟩,
    ⟨0x12#8, .none, fun _ => .driveLowSda⟩,
    ⟨0x13#8, .none, fun _ => .releaseSda⟩,
    ⟨0x14#8, .none, fun _ => .senseSda⟩,
    ⟨0x20#8, .none, fun _ => .waitQ⟩,
    ⟨0x21#8, .count, fun arg => .waitMs (Machine.argCount arg)⟩,
    ⟨0x22#8, .count, fun arg => .waitS (Machine.argCount arg)⟩,
    ⟨0x30#8, .none, fun _ => .idle⟩,
    ⟨0x31#8, .none, fun _ => .start⟩,
    ⟨0x32#8, .bit, fun arg => .writeBit (Machine.argBit arg)⟩,
    ⟨0x33#8, .byte, fun arg => .writeByte (Machine.argByte arg)⟩,
    ⟨0x34#8, .none, fun _ => .stop⟩ ]

/-- The row of an opcode, if the map has one. -/
def opcodeRow (op : Byte) : Option OpcodeRow := opcodeMap.find? fun r => r.op == op

/-- The decoder (R69): the opcode is looked at before the operand (R125). -/
def decode (w : Word) : Except WordRefusal Instr :=
  match opcodeRow (opField w) with
  | none => .error .reservedOpcode
  | some row =>
    match Machine.argRefusal row.form (argField w) with
    | some why => .error why
    | none => .ok (row.command (argField w))

/-- The opcode of a command (R62). -/
def Instr.op : Instr → Byte
  | .driveLowScl => 0x10#8
  | .releaseScl => 0x11#8
  | .driveLowSda => 0x12#8
  | .releaseSda => 0x13#8
  | .senseSda => 0x14#8
  | .waitQ => 0x20#8
  | .waitMs _ => 0x21#8
  | .waitS _ => 0x22#8
  | .idle => 0x30#8
  | .start => 0x31#8
  | .writeBit _ => 0x32#8
  | .writeByte _ => 0x33#8
  | .stop => 0x34#8

/-- The operand form of a command (R62). -/
def Instr.form : Instr → ArgForm
  | .driveLowScl => .none
  | .releaseScl => .none
  | .driveLowSda => .none
  | .releaseSda => .none
  | .senseSda => .none
  | .waitQ => .none
  | .waitMs _ => .count
  | .waitS _ => .count
  | .idle => .none
  | .start => .none
  | .writeBit _ => .bit
  | .writeByte _ => .byte
  | .stop => .none

/-- The operand byte of a command (R61). -/
def Instr.arg : Instr → Byte
  | .driveLowScl => 0x00#8
  | .releaseScl => 0x00#8
  | .driveLowSda => 0x00#8
  | .releaseSda => 0x00#8
  | .senseSda => 0x00#8
  | .waitQ => 0x00#8
  | .waitMs n => BitVec.ofNat 8 n
  | .waitS n => BitVec.ofNat 8 n
  | .idle => 0x00#8
  | .start => 0x00#8
  | .writeBit b => if b then 0x01#8 else 0x00#8
  | .writeByte v => v
  | .stop => 0x00#8

/-- The command word `{OP, ARG}` of a command (R60). -/
def encode (i : Instr) : Word := i.op ++ i.arg

/-- The word an opcode matches once its operand bits are masked off, `{OP, 0x00}` (R63). -/
def Instr.matchWord (i : Instr) : Word := i.op ++ 0x00#8

/-- What the decoder reads from an instruction of `nbits` bits numbered as spec/opcode_table.json numbers them. Every
command is one 16-bit word (R68), so a longer one is no command; bits above `nbits` are 0. -/
def decodeTableWord (nbits w : Nat) : Option Instr :=
  if nbits ≤ 16 then (decode (BitVec.ofNat 16 (w % 2 ^ nbits))).toOption else none

end Sys2Proof
end

