-- ==== Sys2Proof/Machine/Fetch.lean ====
section
/-! DEFINITION. Taking the host's next command word through the decoder (spec/10_state.md rule R30,
spec/30_encoding.md rule R70, spec/70_reset_and_hazards.md rule R145), and placing a word where that happens. -/

namespace Sys2Proof.Machine

/-- What the command port does next. -/
inductive Fetched where
  /-- The run has ended (R145). -/
  | stop (r : Refusal)
  /-- The decoder refused the word; the state has `REFUSED` set and nothing else changed (R70). -/
  | refusedWord (s : State)
  /-- The word names this command. -/
  | run (i : Instr)
  deriving DecidableEq, Repr

/-- Why a run with `REFUSED` set has no further step: the word at `pc`, which the decoder refused. -/
def endReason (s : State) : Refusal :=
  match (commandWord s).map decode with
  | some (.error why) => .reservedWord why
  | some (.ok _) => .runOver
  | none => .runOver

/-- The command port: a run ends when `REFUSED` is set or the host has no further command (R70, R145); a word the
decoder refuses sets `REFUSED`; any other word is a command to run. -/
def fetch (s : State) : Fetched :=
  if s.refused then .stop (endReason s)
  else
    match commandWord s with
    | none => .stop .noCommand
    | some w =>
      match decode w with
      | .error _ => .refusedWord (markRefused s)
      | .ok i => .run i

/-- The host's list with the word at index `k` set to `w`; an index past its end is reached by words of zeros. -/
def placeWord (w : Word) : Nat → List Word → List Word
  | 0, ws => w :: ws.tail
  | k + 1, ws => ws.headD 0x0000#16 :: placeWord w k ws.tail

/-- The host issues `w` as its next command, in a run that has not ended (log entry 2). -/
def placeNext (w : Word) (s : State) : State :=
  { s with cmds := placeWord w s.pc s.cmds, refused := false }

end Sys2Proof.Machine
end

