-- ==== Sys2Proof/Machine/Step.lean ====
section
/-! DEFINITION. One step: one command word of the host, run to completion (spec/00_scope.md rule R5,
spec/20_memory.md rule R46). -/

namespace Sys2Proof.Machine

/-- One step of the machine. -/
def step (s : State) : Host.Outcome State Fault Refusal :=
  match fetch s with
  | .stop r => .refused r
  | .refusedWord t => .next t
  | .run i => exec i s

/-- `s` with the instruction of `nbits` bits `w` as the host's next command (log entry 2). -/
def State.withFetchWord (s : State) (nbits w : Nat) : State :=
  placeNext (BitVec.ofNat 16 (w % 2 ^ nbits)) s

end Sys2Proof.Machine
end

