-- ==== Sys2Proof/Machine/Asm.lean ====
section
/-! DEFINITION. The assembler syntax of spec/30_encoding.md rules R62 and R64: one command per line, the assembler
spelling followed by its operand, `;` starting a comment. It carries no meaning (D30); the block never sees it. -/

namespace Sys2Proof.Machine

/-- The words of the assembler spelling of a command (R62); an operand follows them. -/
def asmSpelling : Instr → List String
  | .driveLowScl => ["drive_low", "scl"]
  | .releaseScl => ["release", "scl"]
  | .driveLowSda => ["drive_low", "sda"]
  | .releaseSda => ["release", "sda"]
  | .senseSda => ["sense", "sda"]
  | .waitQ => ["wait_bus_quantum"]
  | .waitMs _ => ["wait_milliseconds"]
  | .waitS _ => ["wait_seconds"]
  | .idle => ["idle"]
  | .start => ["start"]
  | .writeBit _ => ["write_bit"]
  | .writeByte _ => ["write_byte"]
  | .stop => ["stop"]

/-- A line without its comment (R64). -/
def asmCode (line : List Char) : List Char := line.takeWhile (· != ';')

/-- The words of a line: what stands between blanks (log entry 15). -/
def asmWords (line : List Char) : List (List Char) :=
  let r := line.foldr split ([], [])
  if r.2.isEmpty then r.1 else r.2 :: r.1
where
  /-- Reading from the right: a blank ends the word begun, any other character extends it. -/
  split (c : Char) (acc : List (List Char) × List Char) : List (List Char) × List Char :=
    if c = ' ' ∨ c = '\t' then (if acc.2.isEmpty then acc.1 else acc.2 :: acc.1, []) else (acc.1, c :: acc.2)

/-- The value of a decimal digit. -/
def decimalDigit (c : Char) : Option Nat :=
  if '0' ≤ c ∧ c ≤ '9' then some (c.toNat - '0'.toNat) else none

/-- The value of a hexadecimal digit, of either case (log entry 15). -/
def hexDigit (c : Char) : Option Nat :=
  if 'a' ≤ c ∧ c ≤ 'f' then some (c.toNat - 'a'.toNat + 10)
  else if 'A' ≤ c ∧ c ≤ 'F' then some (c.toNat - 'A'.toNat + 10)
  else decimalDigit c

/-- The value of a digit string in a base; no value for the empty one. -/
def digitsValue (base : Nat) (digit : Char → Option Nat) : List Char → Option Nat
  | [] => none
  | c :: cs => (c :: cs).foldl (fun acc d => acc.bind fun n => (digit d).map fun k => n * base + k) (some 0)

/-- An operand `v` or `n` (R64): a decimal or `0x`-prefixed hexadecimal number in 0 to 255. -/
def asmNumber (word : List Char) : Option Nat :=
  (match word with
    | '0' :: 'x' :: digits => digitsValue 16 hexDigit digits
    | _ => digitsValue 10 decimalDigit word).filter (· ≤ 255)

/-- An operand `b` (R64): `0` or `1`. -/
def asmBit (word : List Char) : Option Bit :=
  if word = ['0'] then some false else if word = ['1'] then some true else none

/-- The command the words of a line spell, if they spell one. -/
def asmCommand (words : List (List Char)) : Option Instr :=
  if words = ["drive_low".toList, "scl".toList] then some .driveLowScl
  else if words = ["release".toList, "scl".toList] then some .releaseScl
  else if words = ["drive_low".toList, "sda".toList] then some .driveLowSda
  else if words = ["release".toList, "sda".toList] then some .releaseSda
  else if words = ["sense".toList, "sda".toList] then some .senseSda
  else if words = ["wait_bus_quantum".toList] then some .waitQ
  else if words = ["idle".toList] then some .idle
  else if words = ["start".toList] then some .start
  else if words = ["stop".toList] then some .stop
  else
    match words with
    | [name, operand] =>
      if name = "wait_milliseconds".toList then (asmNumber operand).map Instr.waitMs
      else if name = "wait_seconds".toList then (asmNumber operand).map Instr.waitS
      else if name = "write_bit".toList then (asmBit operand).map Instr.writeBit
      else if name = "write_byte".toList then (asmNumber operand).map fun n => Instr.writeByte (BitVec.ofNat 8 n)
      else none
    | _ => none

/-- A line of assembler text: no command where it holds only blanks and a comment, one command where it spells one,
an error (no value) otherwise. -/
def assembleLine (line : String) : Option (List Instr) :=
  let words := asmWords (asmCode line.toList)
  if words.isEmpty then some [] else (asmCommand words).map fun i => [i]

/-- A program text, one command per line (R64). -/
def assemble : List String → Option (List Instr)
  | [] => some []
  | line :: lines => (assembleLine line).bind fun is => (assemble lines).map fun rest => is ++ rest

/-- A hexadecimal digit of a value below 16. -/
def hexChar (n : Nat) : Char :=
  if n < 10 then Char.ofNat ('0'.toNat + n) else Char.ofNat ('a'.toNat + (n - 10))

/-- A byte as a `0x`-prefixed number. -/
def byteText (v : Byte) : List Char := ['0', 'x', hexChar (v.toNat / 16), hexChar (v.toNat % 16)]

/-- The operand of a command as text (R64). -/
def asmOperand (i : Instr) : List (List Char) :=
  match i.form with
  | .none => []
  | .bit => [if i.arg = 0x00#8 then ['0'] else ['1']]
  | .byte => [byteText i.arg]
  | .count => [byteText i.arg]

/-- A command as a line of assembler text (R62, R64). -/
def asmText (i : Instr) : String :=
  String.ofList (List.intercalate [' '] ((asmSpelling i).map String.toList ++ asmOperand i))

end Sys2Proof.Machine
end

