-- ==== Sys2Proof/Machine/HostPort.lean ====
section
/-! DEFINITION. What the host does at the command port beside running a command (spec/00_scope.md rule R6): it issues
further words, and it reads the result register (spec/10_state.md rules R26, R30). -/

namespace Sys2Proof.Machine

/-- The host issues further command words; it may have chosen them from `RES` (R30). -/
def issue (ws : List Word) (s : State) : State := { s with cmds := s.cmds ++ ws }

/-- The host reads `RES`: a fault while it is `Unknown` (R26, D7). -/
def readRes (s : State) : Except Fault Bit :=
  match s.res with
  | .zero => .ok false
  | .one => .ok true
  | .unknown => .error .readUnknownResult

end Sys2Proof.Machine
end

