-- ==== Sys2Proof/Machine/Sequence.lean ====
section
/-! DEFINITION. Several commands one after another (spec/20_memory.md rules R46, R48): each runs to completion before
the next begins. -/

namespace Sys2Proof.Machine

/-- The state after the commands of a list, run in order, if each answers a next state. -/
def execAll : List Instr → State → Option State
  | [], s => some s
  | i :: is, s =>
    match exec i s with
    | .next t => execAll is t
    | .fault _ => none
    | .refused _ => none

end Sys2Proof.Machine
end

