-- ==== Sys2Proof/Machine/Observe.lean ====
section
/-! DEFINITION. What can be read off the event log (spec/10_state.md rules R23, R27, spec/70_reset_and_hazards.md rules
R160, R161): the line levels, the drive states a log leaves, its waveform, its event counts, the spacing of its
transitions, and the events each command's rule lists. -/

namespace Sys2Proof.Machine

/-! ### Lines -/

/-- The electrical level of a line (R23), where `bus` is the level the pull-up and the bus devices give a released line;
of an undriven line the rule says nothing. -/
def level (d : Drive) (bus : Bit) : Option Bit :=
  match d with
  | .low => some false
  | .released => some bus
  | .unknown => none

/-- The drive states of the two lines. -/
structure Lines where
  scl : Drive
  sda : Drive
  deriving DecidableEq, Repr

/-- The drive states of a state. -/
def linesOf (s : State) : Lines := ⟨s.drvScl, s.drvSda⟩

/-- The drive states at the start of a run (R31). -/
def Lines.atReset : Lines := ⟨.unknown, .unknown⟩

/-- The drive state of one line. -/
def Lines.get (x : Lines) (l : Line) : Drive :=
  match l with
  | .scl => x.scl
  | .sda => x.sda

/-- The drive states after an event. -/
def Lines.after (x : Lines) (e : Event) : Lines :=
  match e with
  | .act .scl d => { x with scl := d }
  | .act .sda d => { x with sda := d }
  | .q => x
  | .ms _ => x
  | .sec _ => x
  | .smp _ => x

/-- An event is a transition (R27): a line action to another drive state than the line has. -/
def isTransition (x : Lines) (e : Event) : Bool :=
  match e with
  | .act l d => x.get l != d
  | .q => false
  | .ms _ => false
  | .sec _ => false
  | .smp _ => false

/-- An event is a wait: it makes the bus settled (R28). -/
def isWait (e : Event) : Bool :=
  match e with
  | .act _ _ => false
  | .q => true
  | .ms _ => true
  | .sec _ => true
  | .smp _ => false

/-- The drive states a log leaves. -/
def linesAfter (x : Lines) (es : List Event) : Lines := es.foldl Lines.after x

/-- `settled` after a list of events (R28): false after a transition, true after a wait. -/
def settledAfter (x : Lines) (settled : Bool) : List Event → Bool
  | [] => settled
  | e :: es => settledAfter (x.after e) (isWait e || (settled && !isTransition x e)) es

/-- The transitions of a list of events (R27). -/
def transitions (x : Lines) : List Event → List Event
  | [] => []
  | e :: es => (if isTransition x e then [e] else []) ++ transitions (x.after e) es

/-- The transitions of a list of events and all its delays. -/
def transitionsAndWaits (x : Lines) : List Event → List Event
  | [] => []
  | e :: es => (if isTransition x e || isWait e then [e] else []) ++ transitionsAndWaits (x.after e) es

/-- A list without the delays before its first and after its last other event. -/
def trimWaits (es : List Event) : List Event := ((es.dropWhile isWait).reverse.dropWhile isWait).reverse

/-- The wire waveform (R27): the transitions of a log together with the delays between them, and no other delay. -/
def waveform (x : Lines) (es : List Event) : List Event := trimWaits (transitionsAndWaits x es)

/-- An event the log can hold (R27): no line action writes `Unknown`, and a wait's count is at most 255. -/
def legalEvent (e : Event) : Bool :=
  match e with
  | .act _ d => d != .unknown
  | .q => true
  | .ms n => decide (n ≤ 255)
  | .sec n => decide (n ≤ 255)
  | .smp _ => true

/-- The event is a sample of `SDA`. -/
def isSample (e : Event) : Bool :=
  match e with
  | .act _ _ => false
  | .q => false
  | .ms _ => false
  | .sec _ => false
  | .smp _ => true

/-- Every change of `SDA` in the list happens while the host drives `SCL` low (R104). -/
def sdaChangesOnlyWhileSclLow (x : Lines) : List Event → Bool
  | [] => true
  | e :: es =>
    (match e with
      | .act .sda _ => x.scl == .low
      | .act .scl _ => true
      | .q => true
      | .ms _ => true
      | .sec _ => true
      | .smp _ => true) && sdaChangesOnlyWhileSclLow (x.after e) es

/-- Every transition of the list has a `Q` between it and the transition before it (R161); `pending` says that a
transition stands just before the list with no `Q` since. -/
def quantumSpaced (x : Lines) (pending : Bool) : List Event → Bool
  | [] => true
  | e :: es =>
    let t := isTransition x e
    !(t && pending) && quantumSpaced (x.after e) (t || (pending && e != .q)) es

/-! ### Counts and durations (R160) -/

/-- How many events of each kind a list holds. -/
structure EventCounts where
  lineActions : Nat
  quanta : Nat
  samples : Nat
  deriving DecidableEq, Repr

/-- Is the event a line action? -/
def isAct (e : Event) : Bool :=
  match e with
  | .act _ _ => true
  | .q => false
  | .ms _ => false
  | .sec _ => false
  | .smp _ => false

/-- The counts of a list of events. -/
def eventCounts (es : List Event) : EventCounts :=
  ⟨es.countP isAct, es.countP (· == .q), es.countP isSample⟩

/-- The counts R160's table gives each command. -/
def tableCounts : Instr → EventCounts
  | .driveLowScl => ⟨1, 0, 0⟩
  | .releaseScl => ⟨1, 0, 0⟩
  | .driveLowSda => ⟨1, 0, 0⟩
  | .releaseSda => ⟨1, 0, 0⟩
  | .senseSda => ⟨0, 0, 1⟩
  | .waitQ => ⟨0, 1, 0⟩
  | .waitMs _ => ⟨0, 0, 0⟩
  | .waitS _ => ⟨0, 0, 0⟩
  | .idle => ⟨2, 0, 0⟩
  | .start => ⟨4, 3, 0⟩
  | .writeBit _ => ⟨3, 3, 0⟩
  | .writeByte _ => ⟨27, 27, 1⟩
  | .stop => ⟨3, 3, 0⟩

/-- The other event R160's table gives a command. -/
def tableOther : Instr → List Event
  | .driveLowScl => []
  | .releaseScl => []
  | .driveLowSda => []
  | .releaseSda => []
  | .senseSda => []
  | .waitQ => []
  | .waitMs n => [.ms n]
  | .waitS n => [.sec n]
  | .idle => []
  | .start => []
  | .writeBit _ => []
  | .writeByte _ => []
  | .stop => []

/-- The events that are neither a line action, a quantum nor a sample. -/
def otherEvents (es : List Event) : List Event := es.filter fun e => !(isAct e || e == .q || isSample e)

/-- The time an event stands for: a `Q` at least `T_Q` (R90), `MS(n)` and `SEC(n)` nominally `n` units `T_MS` and
`T_S` (R7, R91, R92), a line action or a sample at least zero (R160). -/
def eventTime (e : Event) : Nat :=
  match e with
  | .act _ _ => 0
  | .q => (Config.busQuantum : Nat)
  | .ms n => n * Config.msUnit
  | .sec n => n * Config.secUnit
  | .smp _ => 0

/-- The lower bound on the time a list of events takes (R160; log entry 8). -/
def minDuration (es : List Event) : Nat := (es.map eventTime).sum

/-- The lower bound R160's table gives each command, the nominal ones counted in `T_MS` and `T_S`. -/
def tableDuration : Instr → Nat
  | .driveLowScl => 0
  | .releaseScl => 0
  | .driveLowSda => 0
  | .releaseSda => 0
  | .senseSda => 0
  | .waitQ => (Config.busQuantum : Nat)
  | .waitMs n => n * Config.msUnit
  | .waitS n => n * Config.secUnit
  | .idle => 0
  | .start => 3 * (Config.busQuantum : Nat)
  | .writeBit _ => 3 * (Config.busQuantum : Nat)
  | .writeByte _ => 27 * (Config.busQuantum : Nat)
  | .stop => 3 * (Config.busQuantum : Nat)

/-! ### The events each rule lists -/

/-- The two releases of IDLE and START (R100, R101; R7 `RELEASE_ORDER`). -/
def releaseEvents (o : Config.ReleaseOrder) : List Event :=
  match o with
  | .sdaFirst => [.act .sda .released, .act .scl .released]
  | .sclFirst => [.act .scl .released, .act .sda .released]

/-- The events of `bit_slot(b)` (R113). -/
def slotEvents (b : Bit) : List Event :=
  [.act .sda (dataDrive b), .q, .act .scl .released, .q, .act .scl .low, .q]

/-- The bits of a byte in the order they go out (R42): bit 7 first. -/
def wireBits (v : Byte) : List Bit :=
  [byteBit v 7, byteBit v 6, byteBit v 5, byteBit v 4, byteBit v 3, byteBit v 2, byteBit v 1, byteBit v 0]

/-- The events of the acknowledgment read with sample `x` (R105). -/
def ackEvents (x : Bit) : List Event :=
  [.act .sda .released, .q, .act .scl .released, .q, .smp x, .act .scl .low, .q]

/-- The events a command appends, in the order of its pseudocode (R80 to R107), where `x` is the level its sample
reads. -/
def commandEvents (o : Config.ReleaseOrder) (x : Bit) : Instr → List Event
  | .driveLowScl => [.act .scl .low]
  | .releaseScl => [.act .scl .released]
  | .driveLowSda => [.act .sda .low]
  | .releaseSda => [.act .sda .released]
  | .senseSda => [.smp x]
  | .waitQ => [.q]
  | .waitMs n => [.ms n]
  | .waitS n => [.sec n]
  | .idle => releaseEvents o
  | .start => releaseEvents o ++ [.q, .act .sda .low, .q, .act .scl .low, .q]
  | .writeBit b => slotEvents b
  | .writeByte v => (wireBits v).flatMap slotEvents ++ ackEvents x
  | .stop => [.act .sda .low, .q, .act .scl .released, .q, .act .sda .released, .q]

/-- The events `t`'s log holds beyond `s`'s. -/
def gained (s t : State) : List Event := t.log.drop s.log.length

end Sys2Proof.Machine
end

