-- ==== Sys2Proof/Machine/Wire.lean ====
section
/-! DEFINITION. Reading the wire (spec/42_engine.md rule R111): the START and STOP conditions, the bit slots and the
wire bytes a line-capture harness decodes from the event log. It observes the log and changes nothing. -/

namespace Sys2Proof.Machine

/-- What the harness sees, in order. -/
inductive WireItem where
  | startCondition
  | stopCondition
  /-- Nine bit slots: the byte, the host bit of the acknowledgment slot, and the samples taken in that slot (log entry
  13: the rule speaks of one sample). -/
  | wireByte (v : Byte) (ackHost : Bit) (samples : List Bit)
  /-- A group of one to eight bit slots that a condition ended. -/
  | partialByte (slots : Nat)
  deriving DecidableEq, Repr

/-- A bit slot: the drive state of `SDA` throughout it, and the samples taken in it. -/
structure BitSlot where
  data : Drive
  samples : List Bit
  deriving DecidableEq, Repr

/-- A clock-high period that has not ended: whether it held a condition, and its samples so far. -/
structure HighPeriod where
  condition : Bool
  samples : List Bit
  deriving DecidableEq, Repr

/-- The walk along a log. -/
structure WireWalk where
  lines : Lines
  period : Option HighPeriod
  /-- A START condition has been seen and no STOP condition since. -/
  inFrame : Bool
  /-- The bit slots of the current group, first first; empty outside a frame. -/
  group : List BitSlot
  items : List WireItem
  deriving DecidableEq, Repr

/-- The walk before the first event. -/
def WireWalk.init : WireWalk := ⟨Lines.atReset, none, false, [], []⟩

/-- The host bit of a slot: 1 if `SDA` is released throughout it. -/
def BitSlot.hostBit (b : BitSlot) : Bit := b.data == .released

/-- The byte whose bits, first to last, are bits 7 to 0. -/
def byteOfBits (bits : List Bit) : Byte := bits.foldl (fun v b => (v <<< 1) ||| (if b then 1#8 else 0#8)) 0#8

/-- A further bit slot: nothing outside a frame; the ninth of a group completes a wire byte. -/
def WireWalk.addSlot (b : BitSlot) (w : WireWalk) : WireWalk :=
  if w.inFrame then
    if w.group.length = 8 then
      { w with
        group := []
        items := w.items ++ [.wireByte (byteOfBits (w.group.map BitSlot.hostBit)) b.hostBit b.samples] }
    else { w with group := w.group ++ [b] }
  else w

/-- The end of a clock-high period: it was a bit slot unless it held a condition. -/
def WireWalk.endPeriod (w : WireWalk) : WireWalk :=
  match w.period with
  | none => w
  | some p =>
    let closed := { w with period := none }
    if p.condition then closed else closed.addSlot ⟨w.lines.sda, p.samples⟩

/-- A START or STOP condition: it ends the current group, and its clock-high period is no bit slot. -/
def WireWalk.condition (isStart : Bool) (w : WireWalk) : WireWalk :=
  { w with
    period := w.period.map fun p => { p with condition := true }
    inFrame := isStart
    group := []
    items := w.items ++ (if w.group.isEmpty then [] else [.partialByte w.group.length])
      ++ [if isStart then .startCondition else .stopCondition] }

/-- A line action on `SCL`: low ends the clock-high period, a release from low begins one. -/
def WireWalk.sclAction (d : Drive) (w : WireWalk) : WireWalk :=
  match d with
  | .low => w.endPeriod
  | .released => if w.lines.scl = .low then { w with period := some ⟨false, []⟩ } else w
  | .unknown => w

/-- A line action on `SDA`: a transition while `SCL` is released is a condition. -/
def WireWalk.sdaAction (d : Drive) (w : WireWalk) : WireWalk :=
  if w.lines.scl = .released ∧ w.lines.sda ≠ d then
    match d with
    | .low => w.condition true
    | .released => w.condition false
    | .unknown => w
  else w

/-- A sample belongs to the clock-high period it is taken in. -/
def WireWalk.addSample (b : Bit) (w : WireWalk) : WireWalk :=
  { w with period := w.period.map fun p => { p with samples := p.samples ++ [b] } }

/-- One event of the walk. -/
def WireWalk.next (w : WireWalk) (e : Event) : WireWalk :=
  let seen :=
    match e with
    | .act .scl d => w.sclAction d
    | .act .sda d => w.sdaAction d
    | .q => w
    | .ms _ => w
    | .sec _ => w
    | .smp b => w.addSample b
  { seen with lines := w.lines.after e }

/-- The walk along a log up to its last event. -/
def wireWalk (log : List Event) : WireWalk := log.foldl WireWalk.next WireWalk.init

/-- The walk along a whole log: a clock-high period still open runs to the end of the log. -/
def wireDecode (log : List Event) : WireWalk := (wireWalk log).endPeriod

/-- What the harness decodes from a log. -/
def wireItems (log : List Event) : List WireItem := (wireDecode log).items

/-- The wire bytes of each frame, in order; a frame begins at a START condition. -/
def wireFrames : List WireItem → List (List Byte)
  | [] => []
  | .startCondition :: rest => wireBytes rest :: wireFrames rest
  | .stopCondition :: rest => wireFrames rest
  | .wireByte _ _ _ :: rest => wireFrames rest
  | .partialByte _ :: rest => wireFrames rest
where
  /-- The bytes up to the next condition. -/
  wireBytes : List WireItem → List Byte
    | .wireByte v _ _ :: rest => v :: wireBytes rest
    | .partialByte _ :: rest => wireBytes rest
    | .startCondition :: _ => []
    | .stopCondition :: _ => []
    | [] => []

end Sys2Proof.Machine
end

