-- ==== Sys2Proof/Safety.lean ====
section
/-! DEFINITION. The terms claims are stated in: the premises the spec asks claims to take (spec/30_encoding.md rule R70,
spec/70_reset_and_hazards.md rule R155, spec/93_implementation_defined.md I7), the part of the state the block itself
has (spec/10_state.md rule R28), and the invariant every step keeps. -/

namespace Sys2Proof.Safety

open Sys2Proof.Machine

/-- How many of the 256 words of an opcode the decoder admits (R66). -/
def admittedWords (op : Nat) : Nat :=
  (List.range 256).countP fun arg => (decode (BitVec.ofNat 8 op ++ BitVec.ofNat 8 arg)).toOption.isSome

/-- How many of the 65536 words the decoder admits (R66). -/
def admittedTotal : Nat := ((List.range 256).map admittedWords).sum

/-- No caller obligation has been broken (R150). -/
def flagFree (s : State) : Bool := !s.v1 && !s.v2 && !s.v3 && !s.v4

/-- The premise of a claim about what a receiver sees on the wire (R70, R155). -/
def clean (s : State) : Bool := flagFree s && !s.refused

/-- The premise of a claim about what the panel receives (I7, R142): a clean run, no clock stretching, a sufficient
quantum. -/
def PanelPremise (s : State) : Prop := clean s = true ∧ Config.noStretch ∧ Config.quantumSuffices

/-- Two states agree on everything a command's behaviour may depend on (R28): the lines, the log, the release order and
the environment. `RES`, the bookkeeping and the host's fields are left out. -/
def SameBus (s t : State) : Prop :=
  s.drvScl = t.drvScl ∧ s.drvSda = t.drvSda ∧ s.log = t.log ∧ s.releaseOrder = t.releaseOrder ∧
    s.envAnswers = t.envAnswers ∧ s.draws = t.draws

/-- The drive states are those the log leaves, `settled` too, and the log holds legal events only (R21, R27, R28). -/
def LogExplainsLines (s : State) : Prop :=
  linesOf s = linesAfter Lines.atReset s.log ∧ s.settled = settledAfter Lines.atReset true s.log ∧
    s.log.all legalEvent = true

/-- `RES` is `Unknown` exactly while the block has sampled nothing (R26, R31). -/
def ResultNeedsSample (s : State) : Prop := s.res = .unknown ↔ s.log.any isSample = false

/-- `pc` stands in the host's list or at its end, and `REFUSED` stands only at a word the decoder refuses (R30, R70). -/
def RunPosition (s : State) : Prop :=
  s.pc ≤ s.cmds.length ∧
    (s.refused = true → ∃ w why, commandWord s = some w ∧ decode w = .error why)

/-- The invariant that every step keeps. -/
def Inv (s : State) : Prop := LogExplainsLines s ∧ ResultNeedsSample s ∧ RunPosition s

end Sys2Proof.Safety
end

