-- ==== Sys2Proof/Certificates/Slice0/Obligations.lean ====
section
/-! DEFINITION. The statements for the provers, each from the numbered rules of spec/. -/

open Sys2Proof Sys2Proof.Machine Sys2Proof.Safety

/-! ### Encoding -/

/-- R71, the decode worked example, and one written-out word of each sub-block. -/
def Obligations.WorkedExampleWordsDecode : Prop :=
  opField 0x33AF#16 = 0x33#8 ∧ argField 0x33AF#16 = 0xAF#8 ∧ decode 0x33AF#16 = .ok (.writeByte 0xAF#8) ∧
  opField 0x3202#16 = 0x32#8 ∧ (argField 0x3202#16).extractLsb' 1 7 = 0b0000001#7 ∧
  decode 0x3202#16 = .error .bitArgRange ∧
  decode 0x1400#16 = .ok .senseSda ∧ decode 0x2114#16 = .ok (.waitMs 20)

/-- R69, every opcode: what the decoder answers for each `ARG`, the opcode looked at first. -/
def Obligations.DecoderOfEveryOpcode : Prop :=
  ∀ arg : Byte,
    let noArg (i : Instr) : Except WordRefusal Instr := if arg = 0x00#8 then .ok i else .error .nonzeroArg
    decode (0x10#8 ++ arg) = noArg .driveLowScl ∧ decode (0x11#8 ++ arg) = noArg .releaseScl ∧
    decode (0x12#8 ++ arg) = noArg .driveLowSda ∧ decode (0x13#8 ++ arg) = noArg .releaseSda ∧
    decode (0x14#8 ++ arg) = noArg .senseSda ∧ decode (0x20#8 ++ arg) = noArg .waitQ ∧
    decode (0x21#8 ++ arg) = .ok (.waitMs arg.toNat) ∧ decode (0x22#8 ++ arg) = .ok (.waitS arg.toNat) ∧
    decode (0x30#8 ++ arg) = noArg .idle ∧ decode (0x31#8 ++ arg) = noArg .start ∧
    decode (0x32#8 ++ arg) =
      (if arg.extractLsb' 1 7 = 0#7 then .ok (.writeBit (arg.getLsbD 0)) else .error .bitArgRange) ∧
    decode (0x33#8 ++ arg) = .ok (.writeByte arg) ∧ decode (0x34#8 ++ arg) = noArg .stop ∧
    ∀ op : Byte,
      op ∉ [0x10#8, 0x11#8, 0x12#8, 0x13#8, 0x14#8, 0x20#8, 0x21#8, 0x22#8, 0x30#8, 0x31#8, 0x32#8, 0x33#8, 0x34#8] →
      decode (op ++ arg) = .error .reservedOpcode

/-- R66: the reserved encodings are refused, and 779 of the 65536 words are admitted, 64757 refused. -/
def Obligations.ReservedEncodingsRefused : Prop :=
  let refused (w : Word) : Prop := ∃ why, decode w = .error why
  (∀ w : Word, (opField w).toNat ≤ 0x0F ∨ (0x15 ≤ (opField w).toNat ∧ (opField w).toNat ≤ 0x1F) ∨
      (0x23 ≤ (opField w).toNat ∧ (opField w).toNat ≤ 0x2F) ∨ 0x35 ≤ (opField w).toNat → refused w) ∧
  (∀ (i : Instr) (arg : Byte), i.form = .none → arg ≠ 0x00#8 → refused (i.op ++ arg)) ∧
  (∀ arg : Byte, arg.extractLsb' 1 7 ≠ 0#7 → refused (0x32#8 ++ arg)) ∧
  [0x10, 0x11, 0x12, 0x13, 0x14, 0x20, 0x21, 0x22, 0x30, 0x31, 0x32, 0x33, 0x34].map admittedWords =
    [1, 1, 1, 1, 1, 1, 256, 256, 1, 1, 2, 256, 1] ∧
  admittedTotal = 779 ∧ 256 * 256 - admittedTotal = 64757

/-- R63: the words an opcode matches are those its match and mask give. -/
def Obligations.MatchAndMaskOfEachForm : Prop :=
  formMask .none = 0xFFFF#16 ∧ formMask .bit = 0xFFFE#16 ∧ formMask .byte = 0xFF00#16 ∧
  formMask .count = 0xFF00#16 ∧
  ∀ (j : Instr) (w : Word),
    (∃ i, decode w = .ok i ∧ i.op = j.op) ↔ w &&& formMask j.form = j.op ++ 0x00#8

/-- Decoding the word of a well-formed command gives it back, every operand at every value the encoding admits. -/
def Obligations.DecodeOfEncode : Prop :=
  ∀ i : Instr, i.wellFormed = true → decode (encode i) = .ok i

/-- A word the decoder accepts is the one word of the well-formed command it names: no command has a second spelling. -/
def Obligations.EncodeOfDecode : Prop :=
  ∀ (w : Word) (i : Instr), decode w = .ok i → encode i = w ∧ i.wellFormed = true

/-- A command written as a line of assembler text assembles to itself (R62, R64; the text of numbers and the treatment
of blanks are the model's, log entry 15). -/
def Obligations.AssemblerRoundTrip : Prop :=
  ∀ i : Instr, i.wellFormed = true → assembleLine (asmText i) = some [i]

/-! ### Reset and the step -/

/-- R31: the reset values. -/
def Obligations.ResetValues : Prop :=
  State.reset.drvScl = .unknown ∧ State.reset.drvSda = .unknown ∧ State.reset.res = .unknown ∧
  State.reset.log = [] ∧ State.reset.v1 = false ∧ State.reset.v2 = false ∧ State.reset.v3 = false ∧
  State.reset.v4 = false ∧ State.reset.bitsPending = 0 ∧ State.reset.settled = true ∧
  State.reset.refused = false ∧ State.reset.pc = 0

/-- A step runs the command the host's next word decodes to. -/
def Obligations.StepRunsDecodedCommand : Prop :=
  ∀ (s : State) (w : Word) (i : Instr), s.refused = false → s.cmds[s.pc]? = some w → decode w = .ok i →
    core.step s = exec i s

/-- A refused word sets `REFUSED`, changes nothing else, and leaves a run without a further step (R70). That the mark
is set by a step of its own is the model's choice (log entry 1). -/
def Obligations.RefusedWordOnlySetsItsMark : Prop :=
  ∀ (s : State) (w : Word) (why : WordRefusal), s.refused = false → s.cmds[s.pc]? = some w →
    decode w = .error why →
    step s = .next { s with refused := true } ∧
    step { s with refused := true } = .refused (.reservedWord why)

/-- A run with `REFUSED` set has no further step, and a run whose list is exhausted none either (R70, R145); the names
of the refusals are the model's (log entries 1 and 3). -/
def Obligations.EndedRunHasNoStep : Prop :=
  (∀ s : State, s.refused = true → ∃ r, step s = .refused r) ∧
  (∀ s : State, s.refused = false → s.cmds.length ≤ s.pc → step s = .refused .noCommand)

/-- No step ends in a fault (R120), and a step is refused only where the run has ended (R145). That a word the decoder
refuses takes a step before the run is refused is the model's choice (log entry 1), and so is that a step at the end of
the host's list is refused (log entry 3). -/
def Obligations.StepNeverFaults : Prop :=
  ∀ s : State, (∀ f, step s ≠ .fault f) ∧
    ((∃ r, step s = .refused r) ↔ (s.refused = true ∨ s.cmds.length ≤ s.pc))

/-- Every command completes from every state and advances `pc` by 1; it leaves the host's list, the release order and
`REFUSED` alone (R30, R85, R109). -/
def Obligations.EveryCommandCompletes : Prop :=
  ∀ (i : Instr) (s : State), ∃ t, exec i s = .next t ∧ t.pc = s.pc + 1 ∧ t.cmds = s.cmds ∧
    t.releaseOrder = s.releaseOrder ∧ t.refused = s.refused

/-! ### The Bus Line Driver -/

/-- R80. -/
def Obligations.DriveLowSclResult : Prop :=
  encode .driveLowScl = 0x1000#16 ∧ (∀ bus, level .low bus = some false) ∧
  ∀ s : State, exec .driveLowScl s = .next { s with
    drvScl := .low
    log := s.log ++ [.act .scl .low]
    v4 := s.v4 || (s.drvScl != .low && !s.settled)
    settled := if s.drvScl = .low then s.settled else false
    pc := s.pc + 1 }

/-- R81; the level of the released line is the one the pull-up and the bus devices give it (R23). -/
def Obligations.ReleaseSclResult : Prop :=
  encode .releaseScl = 0x1100#16 ∧ (∀ bus, level .released bus = some bus) ∧
  ∀ s : State, exec .releaseScl s = .next { s with
    drvScl := .released
    log := s.log ++ [.act .scl .released]
    v4 := s.v4 || (s.drvScl != .released && !s.settled)
    settled := if s.drvScl = .released then s.settled else false
    pc := s.pc + 1 }

/-- R82, with its corner case: the falling edge under a released clock reads as a START condition. -/
def Obligations.DriveLowSdaResult : Prop :=
  encode .driveLowSda = 0x1200#16 ∧
  (∀ w : WireWalk, w.lines = ⟨.released, .released⟩ →
    (w.next (.act .sda .low)).items.getLast? = some .startCondition) ∧
  ∀ s : State, exec .driveLowSda s = .next { s with
    drvSda := .low
    log := s.log ++ [.act .sda .low]
    v2 := s.v2 || (s.drvSda != .low && s.drvScl != .low)
    v4 := s.v4 || (s.drvSda != .low && !s.settled)
    settled := if s.drvSda = .low then s.settled else false
    pc := s.pc + 1 }

/-- R83, with its corner case: the rising edge under a released clock reads as a STOP condition. -/
def Obligations.ReleaseSdaResult : Prop :=
  encode .releaseSda = 0x1300#16 ∧
  (∀ w : WireWalk, w.lines = ⟨.released, .low⟩ →
    (w.next (.act .sda .released)).items.getLast? = some .stopCondition) ∧
  ∀ s : State, exec .releaseSda s = .next { s with
    drvSda := .released
    log := s.log ++ [.act .sda .released]
    v2 := s.v2 || (s.drvSda != .released && s.drvScl != .low)
    v4 := s.v4 || (s.drvSda != .released && !s.settled)
    settled := if s.drvSda = .released then s.settled else false
    pc := s.pc + 1 }

/-- R84: the level sensed is 0 while the host drives `SDA` low, the environment's answer while it is released (`envBit`
is the model's `EnvSDA()`), and any bit while nothing has driven it; `RES` takes the level, and of the spec's state only
the log and `pc` change beside it. -/
def Obligations.SenseSdaResult : Prop :=
  encode .senseSda = 0x1400#16 ∧
  ∀ s : State, ∃ (b : Bit) (t : State), exec .senseSda s = .next t ∧
    (s.drvSda = .low → b = false) ∧ (s.drvSda = .released → b = envBit s) ∧
    t = { s with
      res := if b then .one else .zero
      log := s.log ++ [.smp b]
      pc := s.pc + 1
      envAnswers := t.envAnswers
      draws := t.draws }

/-- R23 at a sample: the bit sensed is the wired-AND level of the line, where the line is driven low or released. -/
def Obligations.SampleReadsLineLevel : Prop :=
  ∀ s : State, s.drvSda ≠ .unknown →
    ∃ (b : Bit) (t : State), exec .senseSda s = .next t ∧ t.log = s.log ++ [.smp b] ∧
      level s.drvSda (envBit s) = some b

/-- The environment's listed answers are taken in order, one to each sample of a released `SDA` and none to another
(R24; that the state lists them is the model's choice, log entry 4). -/
def Obligations.SamplesTakeAnswersInOrder : Prop :=
  ∀ (s : State) (b : Bit) (rest : List Bit), s.envAnswers = b :: rest →
    (s.drvSda = .released → ∃ t, exec .senseSda s = .next t ∧ t.res = resultOf b ∧ t.envAnswers = rest) ∧
    (s.drvSda ≠ .released → ∃ t, exec .senseSda s = .next t ∧ t.envAnswers = b :: rest) ∧
    (∀ v, ∃ t, exec (.writeByte v) s = .next t ∧ t.res = resultOf (!b) ∧ t.envAnswers = rest)

/-- R87: a drive command whose line already has the target state is no transition and sets no flag, and is logged. -/
def Obligations.LineDriveIsIdempotent : Prop :=
  ∀ (i : Instr) (l : Line) (d : Drive) (s : State),
    (i, l, d) ∈ [(Instr.driveLowScl, Line.scl, Drive.low), (.releaseScl, .scl, .released),
      (.driveLowSda, .sda, .low), (.releaseSda, .sda, .released)] →
    drv l s = d →
    exec i s = .next { s with log := s.log ++ [.act l d], pc := s.pc + 1 }

/-! ### The Timing Primitive -/

/-- R90. -/
def Obligations.WaitQuantumResult : Prop :=
  encode .waitQ = 0x2000#16 ∧ minDuration [.q, .q] = 2 * (Config.busQuantum : Nat) ∧
  ∀ s : State, exec .waitQ s = .next { s with
    log := s.log ++ [.q], settled := true, pc := s.pc + 1 }

/-- R91, for every count of the operand's range; a wait of 0 waits no time. -/
def Obligations.WaitMillisecondsResult : Prop :=
  (∀ n : Byte, encode (.waitMs n.toNat) = 0x21#8 ++ n) ∧ encode (.waitMs 20) = 0x2114#16 ∧ eventTime (.ms 0) = 0 ∧
  ∀ (n : Nat) (s : State), n ≤ 255 → exec (.waitMs n) s = .next { s with
    log := s.log ++ [.ms n], settled := true, pc := s.pc + 1 }

/-- R92, for every count of the operand's range; a wait of 0 waits no time. -/
def Obligations.WaitSecondsResult : Prop :=
  (∀ n : Byte, encode (.waitS n.toNat) = 0x22#8 ++ n) ∧ encode (.waitS 3) = 0x2203#16 ∧ eventTime (.sec 0) = 0 ∧
  ∀ (n : Nat) (s : State), n ≤ 255 → exec (.waitS n) s = .next { s with
    log := s.log ++ [.sec n], settled := true, pc := s.pc + 1 }

/-- R95, with R93's frame: a timing command settles the bus, the counts of 0 included, and leaves the lines, `RES` and
the flags alone. -/
def Obligations.TimingCommandsSettleTheBus : Prop :=
  ∀ (i : Instr) (s : State), i.subBlock = .timing →
    ∃ t, exec i s = .next t ∧ t.settled = true ∧ linesOf t = linesOf s ∧ t.res = s.res ∧
      t.v1 = s.v1 ∧ t.v2 = s.v2 ∧ t.v3 = s.v3 ∧ t.v4 = s.v4 ∧ t.bitsPending = s.bitsPending

/-! ### The I2C Transaction Engine -/

/-- R100, in the release order the rule is written for, with its corner case: from a released clock and a low data
line the wire shows a STOP condition. -/
def Obligations.IdleResult : Prop :=
  encode .idle = 0x3000#16 ∧
  (∀ w : WireWalk, w.lines = ⟨.released, .low⟩ →
    ([Event.act .sda .released, .act .scl .released].foldl WireWalk.next w).items.getLast? = some .stopCondition) ∧
  ∀ s : State, s.releaseOrder = .sdaFirst → exec .idle s = .next { s with
    drvScl := .released
    drvSda := .released
    log := s.log ++ [.act .sda .released, .act .scl .released]
    bitsPending := 0
    settled := if s.drvSda = .released ∧ s.drvScl = .released then s.settled else false
    pc := s.pc + 1 }

/-- R101, in the release order the rule is written for, with its corner case: from a low clock, outside a clock-high
period and with no bit slot pending, the wire shows the START condition and nothing else, and START's clock-high period
is counted as no bit slot: none is pending after it. -/
def Obligations.StartResult : Prop :=
  encode .start = 0x3100#16 ∧
  (∀ w : WireWalk, w.lines.scl = .low → w.period = none → w.group = [] →
    let u := [Event.act .sda .released, .act .scl .released, .q, .act .sda .low, .q, .act .scl .low, .q].foldl
      WireWalk.next w
    u.items = w.items ++ [.startCondition] ∧ u.group = [] ∧ u.period = none) ∧
  ∀ s : State, s.releaseOrder = .sdaFirst → exec .start s = .next { s with
    drvScl := .low
    drvSda := .low
    log := s.log ++ [.act .sda .released, .act .scl .released, .q, .act .sda .low, .q, .act .scl .low, .q]
    v1 := s.v1 || s.bitsPending != 0
    bitsPending := 0
    settled := true
    pc := s.pc + 1 }

/-- R7, I8: under the other release order IDLE and START differ in the order of their two releases only. -/
def Obligations.OtherReleaseOrderSwapsTwoEvents : Prop :=
  ∀ s : State, s.releaseOrder = .sclFirst →
    exec .idle s = .next { s with
      drvScl := .released
      drvSda := .released
      log := s.log ++ [.act .scl .released, .act .sda .released]
      bitsPending := 0
      settled := if s.drvSda = .released ∧ s.drvScl = .released then s.settled else false
      pc := s.pc + 1 } ∧
    exec .start s = .next { s with
      drvScl := .low
      drvSda := .low
      log := s.log ++ [.act .scl .released, .act .sda .released, .q, .act .sda .low, .q, .act .scl .low, .q]
      v1 := s.v1 || s.bitsPending != 0
      bitsPending := 0
      settled := true
      pc := s.pc + 1 }

/-- R102: the START condition of START is always a falling edge of `SDA` under a released clock. -/
def Obligations.StartConditionIsFallingEdge : Prop :=
  ∀ s : State, ∃ (t : State) (before after : List Event), exec .start s = .next t ∧ gained s t = before ++ [Event.act .sda .low] ++ after ∧
    linesAfter (linesOf s) before = ⟨.released, .released⟩ ∧
    isTransition (linesAfter (linesOf s) before) (.act .sda .low) = true

/-- R113 and R103: WRITE_BIT is one bit slot. -/
def Obligations.WriteBitResult : Prop :=
  encode (.writeBit false) = 0x3200#16 ∧ encode (.writeBit true) = 0x3201#16 ∧
  ∀ (b : Bit) (s : State), exec (.writeBit b) s = .next { s with
    drvScl := .low
    drvSda := if b then .released else .low
    log := s.log ++
      [.act .sda (if b then .released else .low), .q, .act .scl .released, .q, .act .scl .low, .q]
    v3 := s.v3 || s.drvScl != .low
    bitsPending := s.bitsPending + 1
    settled := true
    pc := s.pc + 1 }

/-- R105 and R106: eight bit slots, bit 7 first, then the acknowledgment read; `RES` is 1 exactly where the bit sampled
is 0. Only the environment's own fields change beside what is listed. -/
def Obligations.WriteByteResult : Prop :=
  (∀ v : Byte, encode (.writeByte v) = 0x33#8 ++ v) ∧
  ∀ (v : Byte) (s : State), ∃ (x : Bit) (t : State), exec (.writeByte v) s = .next t ∧ x = envBit s ∧
    t = { s with
      drvScl := .low
      drvSda := .released
      res := if x = false then .one else .zero
      log := s.log ++ slotEvents (v.getLsbD 7) ++ slotEvents (v.getLsbD 6) ++ slotEvents (v.getLsbD 5) ++
        slotEvents (v.getLsbD 4) ++ slotEvents (v.getLsbD 3) ++ slotEvents (v.getLsbD 2) ++
        slotEvents (v.getLsbD 1) ++ slotEvents (v.getLsbD 0) ++
        [.act .sda .released, .q, .act .scl .released, .q, .smp x, .act .scl .low, .q]
      v3 := s.v3 || s.drvScl != .low
      bitsPending := 0
      settled := true
      pc := s.pc + 1
      envAnswers := t.envAnswers
      draws := t.draws }

/-- R42: of the bits of a byte, the `k`-th to go out is bit `7 - k`, whatever the state. -/
def Obligations.MostSignificantBitFirst : Prop :=
  ∀ (v : Byte) (s : State), ∃ t, exec (.writeByte v) s = .next t ∧
    (∀ k, k < 8 → ((gained s t).drop (6 * k)).take 6 = slotEvents (v.getLsbD (7 - k))) ∧
    ∃ x, (gained s t).drop 48 = ackEvents x

/-- R107, with its corner cases: the first action is no condition under a low clock, and a START condition on an idle
bus. -/
def Obligations.StopResult : Prop :=
  encode .stop = 0x3400#16 ∧
  (∀ w : WireWalk, w.lines = ⟨.low, .released⟩ → (w.next (.act .sda .low)).items = w.items) ∧
  (∀ w : WireWalk, w.lines = ⟨.released, .released⟩ →
    (w.next (.act .sda .low)).items.getLast? = some .startCondition) ∧
  ∀ s : State, exec .stop s = .next { s with
    drvScl := .released
    drvSda := .released
    log := s.log ++ [.act .sda .low, .q, .act .scl .released, .q, .act .sda .released, .q]
    bitsPending := 0
    settled := true
    pc := s.pc + 1 }

/-- R108: the STOP condition of STOP is always a rising edge of `SDA` under a clock released one delay before. -/
def Obligations.StopConditionIsRisingEdge : Prop :=
  ∀ s : State, ∃ (t : State) (before : List Event), exec .stop s = .next t ∧
    gained s t = before ++ [Event.act .scl .released, .q, .act .sda .released, .q] ∧
    linesAfter (linesOf s) (before ++ [Event.act .scl .released, .q]) = ⟨.released, .low⟩ ∧
    isTransition (linesAfter (linesOf s) (before ++ [Event.act .scl .released, .q])) (.act .sda .released) = true

/-- R104: any sequence of bit and byte writes entered with the clock low acts on `SDA` only while the clock is low, and
leaves it low; one entered with the clock released does not. -/
def Obligations.DataChangesOnlyUnderLowClock : Prop :=
  (∀ (is : List Instr) (s : State), s.drvScl = .low →
    (∀ i ∈ is, (∃ b, i = .writeBit b) ∨ ∃ v, i = .writeByte v) →
    ∃ t, execAll is s = some t ∧ t.drvScl = .low ∧
      sdaChangesOnlyWhileSclLow (linesOf s) (gained s t) = true) ∧
  (∀ (b : Bit) (s : State), s.drvScl = .released →
    ∃ t, exec (.writeBit b) s = .next t ∧ sdaChangesOnlyWhileSclLow (linesOf s) (gained s t) = false)

/-! ### Events, counts and spacing -/

/-- R46, R48, R110: every well-formed command appends, contiguously, exactly the events its rule lists, where `x` is the
level its sample reads; nothing already logged changes. -/
def Obligations.EventsOfEveryCommand : Prop :=
  ∀ (i : Instr) (s : State), i.wellFormed = true → ∃ (x : Bit) (t : State), exec i s = .next t ∧ t.log = s.log ++ commandEvents s.releaseOrder x i

/-- R160: the event counts of every well-formed command, those of a three-byte frame, and the lower bounds on their
durations. The nominal `n` ms and `n` s are counted as `n` units of `T_MS` and `T_S` (R7), of which nothing is known; that
reading is the model's (log entry 8). -/
def Obligations.EventCountsOfTheTable : Prop :=
  (∀ (i : Instr) (s : State), i.wellFormed = true → ∃ t, exec i s = .next t ∧ eventCounts (gained s t) = tableCounts i ∧
    otherEvents (gained s t) = tableOther i ∧
    minDuration (gained s t) = tableDuration i) ∧
  (∀ (a b c : Byte) (s : State), ∃ t,
    execAll [.start, .writeByte a, .writeByte b, .writeByte c, .stop] s = some t ∧
    eventCounts (gained s t) = ⟨88, 87, 3⟩ ∧ minDuration (gained s t) = 87 * (Config.busQuantum : Nat))

/-- R27: the waveform of a list of events begins and ends with a line action, its line actions are the list's
transitions in order, and between two consecutive transitions it holds exactly the delays the list has there. -/
def Obligations.WaveformIsTransitionsAndDelaysBetween : Prop :=
  ∀ (x : Lines) (es : List Event),
    (∀ e, (waveform x es).head? = some e → isAct e = true) ∧
    (∀ e, (waveform x es).getLast? = some e → isAct e = true) ∧
    (waveform x es).filter isAct = transitions x es ∧
    ∀ (before mid after : List Event) (e f : Event),
      es = before ++ [e] ++ mid ++ [f] ++ after →
      isTransition (linesAfter x before) e = true →
      transitions (linesAfter x (before ++ [e])) mid = [] →
      isTransition (linesAfter x (before ++ [e] ++ mid)) f = true →
      [e] ++ mid.filter isWait ++ [f] <:+: waveform x es

/-- R161: the transitions of START after its two releases, and those of WRITE_BIT, WRITE_BYTE and STOP, have a quantum
between them, and these commands end with one; IDLE ends with none. -/
def Obligations.QuantumBetweenTransitions : Prop :=
  (∀ (i : Instr) (s : State), (i = .stop ∨ (∃ b, i = .writeBit b) ∨ ∃ v, i = .writeByte v) →
    ∃ t, exec i s = .next t ∧ quantumSpaced (linesOf s) false (gained s t) = true ∧
      (gained s t).getLast? = some .q) ∧
  (∀ s : State, ∃ t, exec .start s = .next t ∧
    quantumSpaced ⟨.released, .released⟩ true ((gained s t).drop 2) = true ∧
    linesAfter (linesOf s) ((gained s t).take 2) = ⟨.released, .released⟩ ∧
    (gained s t).take 2 = releaseEvents s.releaseOrder ∧ (gained s t).getLast? = some .q) ∧
  (∀ s : State, ∃ t, exec .idle s = .next t ∧ Event.q ∉ gained s t)

/-- R162: the acknowledgment sample is taken at least one quantum after the clock is released and at least two after
`SDA` is, and the host touches neither line in between. -/
def Obligations.AcknowledgmentSampleIsSpaced : Prop :=
  ∀ (v : Byte) (s : State), ∃ (t : State) (before mid late after : List Event) (x : Bit),
    exec (.writeByte v) s = .next t ∧
    gained s t = before ++ [Event.act .sda .released] ++ mid ++ [Event.act .scl .released] ++ late ++
      [Event.smp x] ++ after ∧
    1 ≤ late.countP (· == .q) ∧ 2 ≤ (mid ++ late).countP (· == .q) ∧
    (mid ++ late).all (fun e => !isAct e) = true

/-! ### The result register, the flags and the bookkeeping -/

/-- R26: WRITE_BYTE writes `RES` with the acknowledgment outcome, SENSE with the level, no other command writes it, and
a host that reads it gets the bit it holds, and faults while it is `Unknown`. -/
def Obligations.ResultRegisterWriters : Prop :=
  (∀ (v : Byte) (s : State), ∃ x t, exec (.writeByte v) s = .next t ∧ Event.smp x ∈ gained s t ∧
    (t.res = .one ↔ x = false) ∧ (t.res = .zero ↔ x = true)) ∧
  (∀ s : State, ∃ b t, exec .senseSda s = .next t ∧ gained s t = [.smp b] ∧
    (t.res = .one ↔ b = true) ∧ (t.res = .zero ↔ b = false)) ∧
  (∀ (i : Instr) (s : State), (∀ v, i ≠ .writeByte v) → i ≠ .senseSda → ∃ t, exec i s = .next t ∧ t.res = s.res) ∧
  (∀ s : State, (readRes s = .error .readUnknownResult ↔ s.res = .unknown) ∧
    (readRes s = .ok false ↔ s.res = .zero) ∧ (readRes s = .ok true ↔ s.res = .one))

/-- R112: a missing acknowledgment changes only `RES` and the sample logged, and whatever `RES` holds the commands that
follow behave the same. Each clause compares two runs whose environment answers alike but where the clause says
otherwise: that equal states draw equal answers is the model's choice (log entry 4). -/
def Obligations.MissedAcknowledgmentChangesOnlyResult : Prop :=
  (∀ (v : Byte) (s : State) (rest : List Bit), ∃ t u,
    exec (.writeByte v) { s with envAnswers := false :: rest } = .next t ∧
    exec (.writeByte v) { s with envAnswers := true :: rest } = .next u ∧
    t.res = .one ∧ u.res = .zero ∧
    u = { t with res := .zero, log := s.log ++ commandEvents s.releaseOrder true (.writeByte v) }) ∧
  (∀ (i : Instr) (s : State) (r : ResultValue), ∃ t u, exec i s = .next t ∧ exec i { s with res := r } = .next u ∧
    { u with res := t.res } = t)

/-- R123, R28: what a command does to the lines, `RES` and the log depends on no flag and on no other bookkeeping, nor on
the host's fields, and the command completes whatever they hold. The two runs compared have an environment that answers
alike: that equal states draw equal answers is the model's choice (log entry 4). -/
def Obligations.BookkeepingDoesNotAffectTheBlock : Prop :=
  ∀ (i : Instr) (s s' : State), SameBus s s' →
    ∃ t t', exec i s = .next t ∧ exec i s' = .next t' ∧ SameBus t t' ∧ (s.res = s'.res → t.res = t'.res)

/-- R150: each flag is set by exactly the commands and in exactly the states its row names, and the command runs all
the same. -/
def Obligations.FlagsSetByTheirConditions : Prop :=
  ∀ (i : Instr) (s : State), ∃ t, exec i s = .next t ∧
    (t.v1 = true ↔ s.v1 = true ∨ (i = .start ∧ s.bitsPending ≠ 0)) ∧
    (t.v2 = true ↔ s.v2 = true ∨ (s.drvScl ≠ .low ∧
      ((i = .driveLowSda ∧ s.drvSda ≠ .low) ∨ (i = .releaseSda ∧ s.drvSda ≠ .released)))) ∧
    (t.v3 = true ↔ s.v3 = true ∨ (s.drvScl ≠ .low ∧ ((∃ b, i = .writeBit b) ∨ ∃ v, i = .writeByte v))) ∧
    (t.v4 = true ↔ s.v4 = true ∨ (s.settled = false ∧
      ((i = .driveLowScl ∧ s.drvScl ≠ .low) ∨ (i = .releaseScl ∧ s.drvScl ≠ .released) ∨
        (i = .driveLowSda ∧ s.drvSda ≠ .low) ∨ (i = .releaseSda ∧ s.drvSda ≠ .released))))

/-- R151: `bits_pending` counts the WRITE_BIT commands since the last IDLE, START, WRITE_BYTE or STOP. -/
def Obligations.BitsPendingCountsWriteBits : Prop :=
  ∀ (i : Instr) (s : State), ∃ t, exec i s = .next t ∧
    ((∃ b, i = .writeBit b) → t.bitsPending = s.bitsPending + 1) ∧
    ((i = .idle ∨ i = .start ∨ (∃ v, i = .writeByte v) ∨ i = .stop) → t.bitsPending = 0) ∧
    ((i.subBlock = .lineDriver ∨ i.subBlock = .timing) → t.bitsPending = s.bitsPending)

/-- R28, R154: `settled` is false after any transition and true after any wait, over the events the command appends. -/
def Obligations.SettledFollowsTheEvents : Prop :=
  ∀ (i : Instr) (s : State), ∃ t, exec i s = .next t ∧ t.settled = settledAfter (linesOf s) s.settled (gained s t)

/-- R28, R155: no step clears a flag or `REFUSED`, and no step changes what is logged. -/
def Obligations.FlagsAndLogNeverShrink : Prop :=
  ∀ s t : State, step s = .next t →
    (s.v1 = true → t.v1 = true) ∧ (s.v2 = true → t.v2 = true) ∧ (s.v3 = true → t.v3 = true) ∧
    (s.v4 = true → t.v4 = true) ∧ (s.refused = true → t.refused = true) ∧ s.log <+: t.log

/-- R21, R22: a step changes the drive states by line actions only, each to `Low` or `Released`, so that a line once
written never becomes `Unknown` again. -/
def Obligations.LinesFollowLineActions : Prop :=
  ∀ s t : State, step s = .next t →
    linesOf t = linesAfter (linesOf s) (gained s t) ∧
    (∀ l, Event.act l .unknown ∉ gained s t) ∧
    (∀ l, drv l s ≠ .unknown → drv l t ≠ .unknown)

/-- R153, R154, TM8: a frame of whole bytes begun by START sets no flag, and ends at rest. -/
def Obligations.WholeByteFrameSetsNoFlag : Prop :=
  ∀ (vs : List Byte) (s : State), flagFree s = true → s.bitsPending = 0 →
    ∃ t, execAll (.start :: vs.map .writeByte ++ [.stop]) s = some t ∧ flagFree t = true ∧
      linesOf t = ⟨.released, .released⟩ ∧ t.bitsPending = 0 ∧ t.settled = true

/-! ### The invariant -/

/-- Every step keeps the invariant: the log explains the lines and `settled` and holds legal events, `RES` is `Unknown`
exactly until the first sample, and `pc` and `REFUSED` stand where R30 and R70 put them. -/
def Obligations.StepKeepsInvariant : Prop :=
  ∀ s t : State, Inv s → core.step s = .next t → Inv t

/-- The invariant holds at reset. -/
def Obligations.ResetMeetsInvariant : Prop := Inv core.reset

/-- Issuing further words keeps the invariant (R30; the growing list is the model's, log entry 2). -/
def Obligations.IssueKeepsInvariant : Prop :=
  ∀ (ws : List Word) (s : State), Inv s → Inv (issue ws s)

/-- Once the refused mark stands in a run that meets the invariant, the refusal it ends with names the reason the decoder
gives for the word at `pc` (R70; that the step after the mark is refused under that name is the model's choice, log entry
1). -/
def Obligations.EndOfRefusedRunNamesItsReason : Prop :=
  ∀ s : State, Inv s → s.refused = true →
    ∃ w why, commandWord s = some w ∧ decode w = .error why ∧ step s = .refused (.reservedWord why)

/-! ### The wire -/

/-- R111: START then WRITE_BYTE `v` yields a START condition and the wire byte `v` with its acknowledgment sample, from
every state and whatever is logged before, after all that was decoded before; `RES` tells that sample. -/
def Obligations.WireYieldsTheByteWritten : Prop :=
  ∀ (v : Byte) (s : State),
    ∃ (t : State) (before : List WireItem) (x : Bit), execAll [.start, .writeByte v] s = some t ∧
      wireItems t.log = before ++ [WireItem.startCondition, .wireByte v true [x]] ∧
      (wireWalk s.log).items <+: before ∧ t.res = resultOf (!x)

/-- R111: a frame of whole bytes is read off the wire, after all that was decoded before, as those bytes in order, each
with one sample, and ends with a STOP condition and no partial byte. -/
def Obligations.FrameIsReadAsItsBytes : Prop :=
  ∀ (vs : List Byte) (s : State),
    ∃ (t : State) (before : List WireItem) (xs : List Bit),
      execAll (.start :: vs.map .writeByte ++ [.stop]) s = some t ∧ xs.length = vs.length ∧
      wireItems t.log = before ++ [WireItem.startCondition] ++
        List.zipWith (fun v x => WireItem.wireByte v true [x]) vs xs ++ [WireItem.stopCondition] ∧
      (wireWalk s.log).items <+: before ∧
      (wireFrames (wireItems t.log)).getLast? = some vs

/-- R101, R111: a repeated START after whole bytes, with the clock low, adds one START condition to the wire and nothing
else, in the release order the rules are written for. -/
def Obligations.RepeatedStartAddsOneCondition : Prop :=
  ∀ s : State, LogExplainsLines s → s.releaseOrder = .sdaFirst → s.drvScl = .low →
    (wireWalk s.log).group = [] →
    ∃ t, exec .start s = .next t ∧ wireItems t.log = wireItems s.log ++ [.startCondition]

/-- R107, I11: STOP on an idle bus shows a START condition and then a STOP condition, with no byte between. -/
def Obligations.StopOnIdleBusIsEmptyPair : Prop :=
  ∀ s : State, LogExplainsLines s → linesOf s = ⟨.released, .released⟩ → (wireWalk s.log).group = [] →
    ∃ t, exec .stop s = .next t ∧
      wireItems t.log = (wireWalk s.log).items ++ [.startCondition, .stopCondition]
end

