-- ==== Sys2Proof/Laws/Decode.lean ====
section
/-! SUPPORT. The two fields of a command word put together from them, and the row the opcode map gives each opcode. -/

namespace Sys2Proof

/-- A bit of a word put together from its two fields (R60). -/
theorem getLsbD_fields (op arg : Byte) (i : Nat) :
    BitVec.getLsbD (op ++ arg : Word) i = if i < 8 then arg.getLsbD i else op.getLsbD (i - 8) :=
  BitVec.getLsbD_append

@[simp] theorem opField_append (op arg : Byte) : opField (op ++ arg) = op := by
  apply BitVec.eq_of_getLsbD_eq
  intro i hi
  simp [opField, getLsbD_fields, hi]

@[simp] theorem argField_append (op arg : Byte) : argField (op ++ arg) = arg := by
  apply BitVec.eq_of_getLsbD_eq
  intro i hi
  simp [argField, getLsbD_fields, hi]

/-- A command word is its two fields (R60). -/
theorem word_eq_fields (w : Word) : w = opField w ++ argField w := by
  apply BitVec.eq_of_getLsbD_eq
  intro i hi
  rw [getLsbD_fields]
  by_cases h : i < 8
  · simp [argField, h]
  · simp [opField, h, show i - 8 < 8 by omega, show 8 + (i - 8) = i by omega]

/-- The map's row of a command's own opcode has its form and names it. -/
theorem opcodeRow_op (i : Instr) :
    ∃ r, opcodeRow i.op = some r ∧ r.op = i.op ∧ r.form = i.form ∧ (r.command i.arg).op = i.op := by
  cases i <;> exact ⟨_, rfl, rfl, rfl, rfl⟩

/-- A row the map gives is one of its thirteen. -/
theorem opcodeRow_mem {op : Byte} {r : OpcodeRow} (h : opcodeRow op = some r) : r ∈ opcodeMap ∧ r.op = op :=
  ⟨List.mem_of_find?_eq_some h, by simpa using List.find?_some h⟩

end Sys2Proof
end

