-- ==== Sys2Proof/Laws/Observe.lean ====
section
/-! SUPPORT. The observers of Machine/Observe.lean and Machine/Wire.lean, and Machine/Sequence.lean's runs, along a
list put together from two. -/

namespace Sys2Proof.Machine

@[simp] theorem linesAfter_nil (x : Lines) : linesAfter x [] = x := rfl

@[simp] theorem linesAfter_cons (x : Lines) (e : Event) (es : List Event) :
    linesAfter x (e :: es) = linesAfter (x.after e) es := rfl

theorem linesAfter_append (x : Lines) (es fs : List Event) :
    linesAfter x (es ++ fs) = linesAfter (linesAfter x es) fs :=
  List.foldl_append

theorem settledAfter_append (x : Lines) (b : Bool) (es fs : List Event) :
    settledAfter x b (es ++ fs) = settledAfter (linesAfter x es) (settledAfter x b es) fs := by
  induction es generalizing x b with
  | nil => rfl
  | cons e es ih => simp [settledAfter, ih]

theorem transitionsAndWaits_append (x : Lines) (es fs : List Event) :
    transitionsAndWaits x (es ++ fs) =
      transitionsAndWaits x es ++ transitionsAndWaits (linesAfter x es) fs := by
  induction es generalizing x with
  | nil => rfl
  | cons e es ih => simp [transitionsAndWaits, ih]

theorem minDuration_append (es fs : List Event) : minDuration (es ++ fs) = minDuration es + minDuration fs := by
  simp [minDuration]

theorem wireWalk_append (es fs : List Event) :
    wireWalk (es ++ fs) = fs.foldl WireWalk.next (wireWalk es) :=
  List.foldl_append

/-- The walk tracks the drive states the log leaves. -/
theorem wireWalk_lines (log : List Event) : (wireWalk log).lines = linesAfter Lines.atReset log := by
  suffices ∀ w : WireWalk, (log.foldl WireWalk.next w).lines = linesAfter w.lines log from this _
  induction log with
  | nil => intro w; rfl
  | cons e es ih => intro w; exact ih (w.next e)

@[simp] theorem execAll_nil (s : State) : execAll [] s = some s := rfl

theorem execAll_cons {i : Instr} {s t : State} (h : exec i s = .next t) (is : List Instr) :
    execAll (i :: is) s = execAll is t := by
  simp [execAll, h]

theorem execAll_append (is js : List Instr) (s : State) :
    execAll (is ++ js) s = (execAll is s).bind (execAll js) := by
  induction is generalizing s with
  | nil => rfl
  | cons i is ih =>
    cases h : exec i s with
    | next t => simp [execAll, h, ih]
    | fault r => simp [execAll, h]
    | refused r => simp [execAll, h]

end Sys2Proof.Machine
end

