-- ==== Sys2Proof/Laws/State.lean ====
section
/-! SUPPORT. One lemma per field per update of State: what Machine/Ops.lean's and Machine/HostPort.lean's updates write
and what they leave alone. -/

namespace Sys2Proof.Machine

/-! ### emit e s -/

@[simp] theorem emit_drvScl (e : Event) (s : State) : (emit e s).drvScl = s.drvScl := rfl
@[simp] theorem emit_drvSda (e : Event) (s : State) : (emit e s).drvSda = s.drvSda := rfl
@[simp] theorem emit_res (e : Event) (s : State) : (emit e s).res = s.res := rfl
@[simp] theorem emit_log (e : Event) (s : State) : (emit e s).log = s.log ++ [e] := rfl
@[simp] theorem emit_v1 (e : Event) (s : State) : (emit e s).v1 = s.v1 := rfl
@[simp] theorem emit_v2 (e : Event) (s : State) : (emit e s).v2 = s.v2 := rfl
@[simp] theorem emit_v3 (e : Event) (s : State) : (emit e s).v3 = s.v3 := rfl
@[simp] theorem emit_v4 (e : Event) (s : State) : (emit e s).v4 = s.v4 := rfl
@[simp] theorem emit_bitsPending (e : Event) (s : State) : (emit e s).bitsPending = s.bitsPending := rfl
@[simp] theorem emit_settled (e : Event) (s : State) : (emit e s).settled = s.settled := rfl
@[simp] theorem emit_refused (e : Event) (s : State) : (emit e s).refused = s.refused := rfl
@[simp] theorem emit_pc (e : Event) (s : State) : (emit e s).pc = s.pc := rfl
@[simp] theorem emit_cmds (e : Event) (s : State) : (emit e s).cmds = s.cmds := rfl
@[simp] theorem emit_releaseOrder (e : Event) (s : State) : (emit e s).releaseOrder = s.releaseOrder := rfl
@[simp] theorem emit_envAnswers (e : Event) (s : State) : (emit e s).envAnswers = s.envAnswers := rfl
@[simp] theorem emit_draws (e : Event) (s : State) : (emit e s).draws = s.draws := rfl

/-! ### setSettled b s -/

@[simp] theorem setSettled_drvScl (b : Bool) (s : State) : (setSettled b s).drvScl = s.drvScl := rfl
@[simp] theorem setSettled_drvSda (b : Bool) (s : State) : (setSettled b s).drvSda = s.drvSda := rfl
@[simp] theorem setSettled_res (b : Bool) (s : State) : (setSettled b s).res = s.res := rfl
@[simp] theorem setSettled_log (b : Bool) (s : State) : (setSettled b s).log = s.log := rfl
@[simp] theorem setSettled_v1 (b : Bool) (s : State) : (setSettled b s).v1 = s.v1 := rfl
@[simp] theorem setSettled_v2 (b : Bool) (s : State) : (setSettled b s).v2 = s.v2 := rfl
@[simp] theorem setSettled_v3 (b : Bool) (s : State) : (setSettled b s).v3 = s.v3 := rfl
@[simp] theorem setSettled_v4 (b : Bool) (s : State) : (setSettled b s).v4 = s.v4 := rfl
@[simp] theorem setSettled_bitsPending (b : Bool) (s : State) : (setSettled b s).bitsPending = s.bitsPending := rfl
@[simp] theorem setSettled_settled (b : Bool) (s : State) : (setSettled b s).settled = b := rfl
@[simp] theorem setSettled_refused (b : Bool) (s : State) : (setSettled b s).refused = s.refused := rfl
@[simp] theorem setSettled_pc (b : Bool) (s : State) : (setSettled b s).pc = s.pc := rfl
@[simp] theorem setSettled_cmds (b : Bool) (s : State) : (setSettled b s).cmds = s.cmds := rfl
@[simp] theorem setSettled_releaseOrder (b : Bool) (s : State) : (setSettled b s).releaseOrder = s.releaseOrder := rfl
@[simp] theorem setSettled_envAnswers (b : Bool) (s : State) : (setSettled b s).envAnswers = s.envAnswers := rfl
@[simp] theorem setSettled_draws (b : Bool) (s : State) : (setSettled b s).draws = s.draws := rfl

/-! ### setRes b s -/

@[simp] theorem setRes_drvScl (b : Bit) (s : State) : (setRes b s).drvScl = s.drvScl := rfl
@[simp] theorem setRes_drvSda (b : Bit) (s : State) : (setRes b s).drvSda = s.drvSda := rfl
@[simp] theorem setRes_res (b : Bit) (s : State) : (setRes b s).res = resultOf b := rfl
@[simp] theorem setRes_log (b : Bit) (s : State) : (setRes b s).log = s.log := rfl
@[simp] theorem setRes_v1 (b : Bit) (s : State) : (setRes b s).v1 = s.v1 := rfl
@[simp] theorem setRes_v2 (b : Bit) (s : State) : (setRes b s).v2 = s.v2 := rfl
@[simp] theorem setRes_v3 (b : Bit) (s : State) : (setRes b s).v3 = s.v3 := rfl
@[simp] theorem setRes_v4 (b : Bit) (s : State) : (setRes b s).v4 = s.v4 := rfl
@[simp] theorem setRes_bitsPending (b : Bit) (s : State) : (setRes b s).bitsPending = s.bitsPending := rfl
@[simp] theorem setRes_settled (b : Bit) (s : State) : (setRes b s).settled = s.settled := rfl
@[simp] theorem setRes_refused (b : Bit) (s : State) : (setRes b s).refused = s.refused := rfl
@[simp] theorem setRes_pc (b : Bit) (s : State) : (setRes b s).pc = s.pc := rfl
@[simp] theorem setRes_cmds (b : Bit) (s : State) : (setRes b s).cmds = s.cmds := rfl
@[simp] theorem setRes_releaseOrder (b : Bit) (s : State) : (setRes b s).releaseOrder = s.releaseOrder := rfl
@[simp] theorem setRes_envAnswers (b : Bit) (s : State) : (setRes b s).envAnswers = s.envAnswers := rfl
@[simp] theorem setRes_draws (b : Bit) (s : State) : (setRes b s).draws = s.draws := rfl

/-! ### setBitsPending n s -/

@[simp] theorem setBitsPending_drvScl (n : Nat) (s : State) : (setBitsPending n s).drvScl = s.drvScl := rfl
@[simp] theorem setBitsPending_drvSda (n : Nat) (s : State) : (setBitsPending n s).drvSda = s.drvSda := rfl
@[simp] theorem setBitsPending_res (n : Nat) (s : State) : (setBitsPending n s).res = s.res := rfl
@[simp] theorem setBitsPending_log (n : Nat) (s : State) : (setBitsPending n s).log = s.log := rfl
@[simp] theorem setBitsPending_v1 (n : Nat) (s : State) : (setBitsPending n s).v1 = s.v1 := rfl
@[simp] theorem setBitsPending_v2 (n : Nat) (s : State) : (setBitsPending n s).v2 = s.v2 := rfl
@[simp] theorem setBitsPending_v3 (n : Nat) (s : State) : (setBitsPending n s).v3 = s.v3 := rfl
@[simp] theorem setBitsPending_v4 (n : Nat) (s : State) : (setBitsPending n s).v4 = s.v4 := rfl
@[simp] theorem setBitsPending_bitsPending (n : Nat) (s : State) : (setBitsPending n s).bitsPending = n := rfl
@[simp] theorem setBitsPending_settled (n : Nat) (s : State) : (setBitsPending n s).settled = s.settled := rfl
@[simp] theorem setBitsPending_refused (n : Nat) (s : State) : (setBitsPending n s).refused = s.refused := rfl
@[simp] theorem setBitsPending_pc (n : Nat) (s : State) : (setBitsPending n s).pc = s.pc := rfl
@[simp] theorem setBitsPending_cmds (n : Nat) (s : State) : (setBitsPending n s).cmds = s.cmds := rfl
@[simp] theorem setBitsPending_releaseOrder (n : Nat) (s : State) : (setBitsPending n s).releaseOrder = s.releaseOrder := rfl
@[simp] theorem setBitsPending_envAnswers (n : Nat) (s : State) : (setBitsPending n s).envAnswers = s.envAnswers := rfl
@[simp] theorem setBitsPending_draws (n : Nat) (s : State) : (setBitsPending n s).draws = s.draws := rfl

/-! ### markRefused s -/

@[simp] theorem markRefused_drvScl (s : State) : (markRefused s).drvScl = s.drvScl := rfl
@[simp] theorem markRefused_drvSda (s : State) : (markRefused s).drvSda = s.drvSda := rfl
@[simp] theorem markRefused_res (s : State) : (markRefused s).res = s.res := rfl
@[simp] theorem markRefused_log (s : State) : (markRefused s).log = s.log := rfl
@[simp] theorem markRefused_v1 (s : State) : (markRefused s).v1 = s.v1 := rfl
@[simp] theorem markRefused_v2 (s : State) : (markRefused s).v2 = s.v2 := rfl
@[simp] theorem markRefused_v3 (s : State) : (markRefused s).v3 = s.v3 := rfl
@[simp] theorem markRefused_v4 (s : State) : (markRefused s).v4 = s.v4 := rfl
@[simp] theorem markRefused_bitsPending (s : State) : (markRefused s).bitsPending = s.bitsPending := rfl
@[simp] theorem markRefused_settled (s : State) : (markRefused s).settled = s.settled := rfl
@[simp] theorem markRefused_refused (s : State) : (markRefused s).refused = true := rfl
@[simp] theorem markRefused_pc (s : State) : (markRefused s).pc = s.pc := rfl
@[simp] theorem markRefused_cmds (s : State) : (markRefused s).cmds = s.cmds := rfl
@[simp] theorem markRefused_releaseOrder (s : State) : (markRefused s).releaseOrder = s.releaseOrder := rfl
@[simp] theorem markRefused_envAnswers (s : State) : (markRefused s).envAnswers = s.envAnswers := rfl
@[simp] theorem markRefused_draws (s : State) : (markRefused s).draws = s.draws := rfl

/-! ### complete s -/

@[simp] theorem complete_drvScl (s : State) : (complete s).drvScl = s.drvScl := rfl
@[simp] theorem complete_drvSda (s : State) : (complete s).drvSda = s.drvSda := rfl
@[simp] theorem complete_res (s : State) : (complete s).res = s.res := rfl
@[simp] theorem complete_log (s : State) : (complete s).log = s.log := rfl
@[simp] theorem complete_v1 (s : State) : (complete s).v1 = s.v1 := rfl
@[simp] theorem complete_v2 (s : State) : (complete s).v2 = s.v2 := rfl
@[simp] theorem complete_v3 (s : State) : (complete s).v3 = s.v3 := rfl
@[simp] theorem complete_v4 (s : State) : (complete s).v4 = s.v4 := rfl
@[simp] theorem complete_bitsPending (s : State) : (complete s).bitsPending = s.bitsPending := rfl
@[simp] theorem complete_settled (s : State) : (complete s).settled = s.settled := rfl
@[simp] theorem complete_refused (s : State) : (complete s).refused = s.refused := rfl
@[simp] theorem complete_pc (s : State) : (complete s).pc = s.pc + 1 := rfl
@[simp] theorem complete_cmds (s : State) : (complete s).cmds = s.cmds := rfl
@[simp] theorem complete_releaseOrder (s : State) : (complete s).releaseOrder = s.releaseOrder := rfl
@[simp] theorem complete_envAnswers (s : State) : (complete s).envAnswers = s.envAnswers := rfl
@[simp] theorem complete_draws (s : State) : (complete s).draws = s.draws := rfl

/-! ### drawn s -/

@[simp] theorem drawn_drvScl (s : State) : (drawn s).drvScl = s.drvScl := rfl
@[simp] theorem drawn_drvSda (s : State) : (drawn s).drvSda = s.drvSda := rfl
@[simp] theorem drawn_res (s : State) : (drawn s).res = s.res := rfl
@[simp] theorem drawn_log (s : State) : (drawn s).log = s.log := rfl
@[simp] theorem drawn_v1 (s : State) : (drawn s).v1 = s.v1 := rfl
@[simp] theorem drawn_v2 (s : State) : (drawn s).v2 = s.v2 := rfl
@[simp] theorem drawn_v3 (s : State) : (drawn s).v3 = s.v3 := rfl
@[simp] theorem drawn_v4 (s : State) : (drawn s).v4 = s.v4 := rfl
@[simp] theorem drawn_bitsPending (s : State) : (drawn s).bitsPending = s.bitsPending := rfl
@[simp] theorem drawn_settled (s : State) : (drawn s).settled = s.settled := rfl
@[simp] theorem drawn_refused (s : State) : (drawn s).refused = s.refused := rfl
@[simp] theorem drawn_pc (s : State) : (drawn s).pc = s.pc := rfl
@[simp] theorem drawn_cmds (s : State) : (drawn s).cmds = s.cmds := rfl
@[simp] theorem drawn_releaseOrder (s : State) : (drawn s).releaseOrder = s.releaseOrder := rfl
@[simp] theorem drawn_envAnswers (s : State) : (drawn s).envAnswers = s.envAnswers.tail := rfl
@[simp] theorem drawn_draws (s : State) : (drawn s).draws = s.draws + 1 := rfl

/-! ### drawnFree s -/

@[simp] theorem drawnFree_drvScl (s : State) : (drawnFree s).drvScl = s.drvScl := rfl
@[simp] theorem drawnFree_drvSda (s : State) : (drawnFree s).drvSda = s.drvSda := rfl
@[simp] theorem drawnFree_res (s : State) : (drawnFree s).res = s.res := rfl
@[simp] theorem drawnFree_log (s : State) : (drawnFree s).log = s.log := rfl
@[simp] theorem drawnFree_v1 (s : State) : (drawnFree s).v1 = s.v1 := rfl
@[simp] theorem drawnFree_v2 (s : State) : (drawnFree s).v2 = s.v2 := rfl
@[simp] theorem drawnFree_v3 (s : State) : (drawnFree s).v3 = s.v3 := rfl
@[simp] theorem drawnFree_v4 (s : State) : (drawnFree s).v4 = s.v4 := rfl
@[simp] theorem drawnFree_bitsPending (s : State) : (drawnFree s).bitsPending = s.bitsPending := rfl
@[simp] theorem drawnFree_settled (s : State) : (drawnFree s).settled = s.settled := rfl
@[simp] theorem drawnFree_refused (s : State) : (drawnFree s).refused = s.refused := rfl
@[simp] theorem drawnFree_pc (s : State) : (drawnFree s).pc = s.pc := rfl
@[simp] theorem drawnFree_cmds (s : State) : (drawnFree s).cmds = s.cmds := rfl
@[simp] theorem drawnFree_releaseOrder (s : State) : (drawnFree s).releaseOrder = s.releaseOrder := rfl
@[simp] theorem drawnFree_envAnswers (s : State) : (drawnFree s).envAnswers = s.envAnswers := rfl
@[simp] theorem drawnFree_draws (s : State) : (drawnFree s).draws = s.draws + 1 := rfl

/-! ### setDrv .scl d s -/

@[simp] theorem setDrv_scl_drvScl (d : Drive) (s : State) : (setDrv .scl d s).drvScl = d := rfl
@[simp] theorem setDrv_scl_drvSda (d : Drive) (s : State) : (setDrv .scl d s).drvSda = s.drvSda := rfl
@[simp] theorem setDrv_scl_res (d : Drive) (s : State) : (setDrv .scl d s).res = s.res := rfl
@[simp] theorem setDrv_scl_log (d : Drive) (s : State) : (setDrv .scl d s).log = s.log := rfl
@[simp] theorem setDrv_scl_v1 (d : Drive) (s : State) : (setDrv .scl d s).v1 = s.v1 := rfl
@[simp] theorem setDrv_scl_v2 (d : Drive) (s : State) : (setDrv .scl d s).v2 = s.v2 := rfl
@[simp] theorem setDrv_scl_v3 (d : Drive) (s : State) : (setDrv .scl d s).v3 = s.v3 := rfl
@[simp] theorem setDrv_scl_v4 (d : Drive) (s : State) : (setDrv .scl d s).v4 = s.v4 := rfl
@[simp] theorem setDrv_scl_bitsPending (d : Drive) (s : State) : (setDrv .scl d s).bitsPending = s.bitsPending := rfl
@[simp] theorem setDrv_scl_settled (d : Drive) (s : State) : (setDrv .scl d s).settled = s.settled := rfl
@[simp] theorem setDrv_scl_refused (d : Drive) (s : State) : (setDrv .scl d s).refused = s.refused := rfl
@[simp] theorem setDrv_scl_pc (d : Drive) (s : State) : (setDrv .scl d s).pc = s.pc := rfl
@[simp] theorem setDrv_scl_cmds (d : Drive) (s : State) : (setDrv .scl d s).cmds = s.cmds := rfl
@[simp] theorem setDrv_scl_releaseOrder (d : Drive) (s : State) : (setDrv .scl d s).releaseOrder = s.releaseOrder := rfl
@[simp] theorem setDrv_scl_envAnswers (d : Drive) (s : State) : (setDrv .scl d s).envAnswers = s.envAnswers := rfl
@[simp] theorem setDrv_scl_draws (d : Drive) (s : State) : (setDrv .scl d s).draws = s.draws := rfl

/-! ### setDrv .sda d s -/

@[simp] theorem setDrv_sda_drvScl (d : Drive) (s : State) : (setDrv .sda d s).drvScl = s.drvScl := rfl
@[simp] theorem setDrv_sda_drvSda (d : Drive) (s : State) : (setDrv .sda d s).drvSda = d := rfl
@[simp] theorem setDrv_sda_res (d : Drive) (s : State) : (setDrv .sda d s).res = s.res := rfl
@[simp] theorem setDrv_sda_log (d : Drive) (s : State) : (setDrv .sda d s).log = s.log := rfl
@[simp] theorem setDrv_sda_v1 (d : Drive) (s : State) : (setDrv .sda d s).v1 = s.v1 := rfl
@[simp] theorem setDrv_sda_v2 (d : Drive) (s : State) : (setDrv .sda d s).v2 = s.v2 := rfl
@[simp] theorem setDrv_sda_v3 (d : Drive) (s : State) : (setDrv .sda d s).v3 = s.v3 := rfl
@[simp] theorem setDrv_sda_v4 (d : Drive) (s : State) : (setDrv .sda d s).v4 = s.v4 := rfl
@[simp] theorem setDrv_sda_bitsPending (d : Drive) (s : State) : (setDrv .sda d s).bitsPending = s.bitsPending := rfl
@[simp] theorem setDrv_sda_settled (d : Drive) (s : State) : (setDrv .sda d s).settled = s.settled := rfl
@[simp] theorem setDrv_sda_refused (d : Drive) (s : State) : (setDrv .sda d s).refused = s.refused := rfl
@[simp] theorem setDrv_sda_pc (d : Drive) (s : State) : (setDrv .sda d s).pc = s.pc := rfl
@[simp] theorem setDrv_sda_cmds (d : Drive) (s : State) : (setDrv .sda d s).cmds = s.cmds := rfl
@[simp] theorem setDrv_sda_releaseOrder (d : Drive) (s : State) : (setDrv .sda d s).releaseOrder = s.releaseOrder := rfl
@[simp] theorem setDrv_sda_envAnswers (d : Drive) (s : State) : (setDrv .sda d s).envAnswers = s.envAnswers := rfl
@[simp] theorem setDrv_sda_draws (d : Drive) (s : State) : (setDrv .sda d s).draws = s.draws := rfl

/-! ### flagIf .v1 c s -/

@[simp] theorem flagIf_v1_drvScl (c : Bool) (s : State) : (flagIf .v1 c s).drvScl = s.drvScl := rfl
@[simp] theorem flagIf_v1_drvSda (c : Bool) (s : State) : (flagIf .v1 c s).drvSda = s.drvSda := rfl
@[simp] theorem flagIf_v1_res (c : Bool) (s : State) : (flagIf .v1 c s).res = s.res := rfl
@[simp] theorem flagIf_v1_log (c : Bool) (s : State) : (flagIf .v1 c s).log = s.log := rfl
@[simp] theorem flagIf_v1_v1 (c : Bool) (s : State) : (flagIf .v1 c s).v1 = (s.v1 || c) := rfl
@[simp] theorem flagIf_v1_v2 (c : Bool) (s : State) : (flagIf .v1 c s).v2 = s.v2 := rfl
@[simp] theorem flagIf_v1_v3 (c : Bool) (s : State) : (flagIf .v1 c s).v3 = s.v3 := rfl
@[simp] theorem flagIf_v1_v4 (c : Bool) (s : State) : (flagIf .v1 c s).v4 = s.v4 := rfl
@[simp] theorem flagIf_v1_bitsPending (c : Bool) (s : State) : (flagIf .v1 c s).bitsPending = s.bitsPending := rfl
@[simp] theorem flagIf_v1_settled (c : Bool) (s : State) : (flagIf .v1 c s).settled = s.settled := rfl
@[simp] theorem flagIf_v1_refused (c : Bool) (s : State) : (flagIf .v1 c s).refused = s.refused := rfl
@[simp] theorem flagIf_v1_pc (c : Bool) (s : State) : (flagIf .v1 c s).pc = s.pc := rfl
@[simp] theorem flagIf_v1_cmds (c : Bool) (s : State) : (flagIf .v1 c s).cmds = s.cmds := rfl
@[simp] theorem flagIf_v1_releaseOrder (c : Bool) (s : State) : (flagIf .v1 c s).releaseOrder = s.releaseOrder := rfl
@[simp] theorem flagIf_v1_envAnswers (c : Bool) (s : State) : (flagIf .v1 c s).envAnswers = s.envAnswers := rfl
@[simp] theorem flagIf_v1_draws (c : Bool) (s : State) : (flagIf .v1 c s).draws = s.draws := rfl

/-! ### flagIf .v2 c s -/

@[simp] theorem flagIf_v2_drvScl (c : Bool) (s : State) : (flagIf .v2 c s).drvScl = s.drvScl := rfl
@[simp] theorem flagIf_v2_drvSda (c : Bool) (s : State) : (flagIf .v2 c s).drvSda = s.drvSda := rfl
@[simp] theorem flagIf_v2_res (c : Bool) (s : State) : (flagIf .v2 c s).res = s.res := rfl
@[simp] theorem flagIf_v2_log (c : Bool) (s : State) : (flagIf .v2 c s).log = s.log := rfl
@[simp] theorem flagIf_v2_v1 (c : Bool) (s : State) : (flagIf .v2 c s).v1 = s.v1 := rfl
@[simp] theorem flagIf_v2_v2 (c : Bool) (s : State) : (flagIf .v2 c s).v2 = (s.v2 || c) := rfl
@[simp] theorem flagIf_v2_v3 (c : Bool) (s : State) : (flagIf .v2 c s).v3 = s.v3 := rfl
@[simp] theorem flagIf_v2_v4 (c : Bool) (s : State) : (flagIf .v2 c s).v4 = s.v4 := rfl
@[simp] theorem flagIf_v2_bitsPending (c : Bool) (s : State) : (flagIf .v2 c s).bitsPending = s.bitsPending := rfl
@[simp] theorem flagIf_v2_settled (c : Bool) (s : State) : (flagIf .v2 c s).settled = s.settled := rfl
@[simp] theorem flagIf_v2_refused (c : Bool) (s : State) : (flagIf .v2 c s).refused = s.refused := rfl
@[simp] theorem flagIf_v2_pc (c : Bool) (s : State) : (flagIf .v2 c s).pc = s.pc := rfl
@[simp] theorem flagIf_v2_cmds (c : Bool) (s : State) : (flagIf .v2 c s).cmds = s.cmds := rfl
@[simp] theorem flagIf_v2_releaseOrder (c : Bool) (s : State) : (flagIf .v2 c s).releaseOrder = s.releaseOrder := rfl
@[simp] theorem flagIf_v2_envAnswers (c : Bool) (s : State) : (flagIf .v2 c s).envAnswers = s.envAnswers := rfl
@[simp] theorem flagIf_v2_draws (c : Bool) (s : State) : (flagIf .v2 c s).draws = s.draws := rfl

/-! ### flagIf .v3 c s -/

@[simp] theorem flagIf_v3_drvScl (c : Bool) (s : State) : (flagIf .v3 c s).drvScl = s.drvScl := rfl
@[simp] theorem flagIf_v3_drvSda (c : Bool) (s : State) : (flagIf .v3 c s).drvSda = s.drvSda := rfl
@[simp] theorem flagIf_v3_res (c : Bool) (s : State) : (flagIf .v3 c s).res = s.res := rfl
@[simp] theorem flagIf_v3_log (c : Bool) (s : State) : (flagIf .v3 c s).log = s.log := rfl
@[simp] theorem flagIf_v3_v1 (c : Bool) (s : State) : (flagIf .v3 c s).v1 = s.v1 := rfl
@[simp] theorem flagIf_v3_v2 (c : Bool) (s : State) : (flagIf .v3 c s).v2 = s.v2 := rfl
@[simp] theorem flagIf_v3_v3 (c : Bool) (s : State) : (flagIf .v3 c s).v3 = (s.v3 || c) := rfl
@[simp] theorem flagIf_v3_v4 (c : Bool) (s : State) : (flagIf .v3 c s).v4 = s.v4 := rfl
@[simp] theorem flagIf_v3_bitsPending (c : Bool) (s : State) : (flagIf .v3 c s).bitsPending = s.bitsPending := rfl
@[simp] theorem flagIf_v3_settled (c : Bool) (s : State) : (flagIf .v3 c s).settled = s.settled := rfl
@[simp] theorem flagIf_v3_refused (c : Bool) (s : State) : (flagIf .v3 c s).refused = s.refused := rfl
@[simp] theorem flagIf_v3_pc (c : Bool) (s : State) : (flagIf .v3 c s).pc = s.pc := rfl
@[simp] theorem flagIf_v3_cmds (c : Bool) (s : State) : (flagIf .v3 c s).cmds = s.cmds := rfl
@[simp] theorem flagIf_v3_releaseOrder (c : Bool) (s : State) : (flagIf .v3 c s).releaseOrder = s.releaseOrder := rfl
@[simp] theorem flagIf_v3_envAnswers (c : Bool) (s : State) : (flagIf .v3 c s).envAnswers = s.envAnswers := rfl
@[simp] theorem flagIf_v3_draws (c : Bool) (s : State) : (flagIf .v3 c s).draws = s.draws := rfl

/-! ### flagIf .v4 c s -/

@[simp] theorem flagIf_v4_drvScl (c : Bool) (s : State) : (flagIf .v4 c s).drvScl = s.drvScl := rfl
@[simp] theorem flagIf_v4_drvSda (c : Bool) (s : State) : (flagIf .v4 c s).drvSda = s.drvSda := rfl
@[simp] theorem flagIf_v4_res (c : Bool) (s : State) : (flagIf .v4 c s).res = s.res := rfl
@[simp] theorem flagIf_v4_log (c : Bool) (s : State) : (flagIf .v4 c s).log = s.log := rfl
@[simp] theorem flagIf_v4_v1 (c : Bool) (s : State) : (flagIf .v4 c s).v1 = s.v1 := rfl
@[simp] theorem flagIf_v4_v2 (c : Bool) (s : State) : (flagIf .v4 c s).v2 = s.v2 := rfl
@[simp] theorem flagIf_v4_v3 (c : Bool) (s : State) : (flagIf .v4 c s).v3 = s.v3 := rfl
@[simp] theorem flagIf_v4_v4 (c : Bool) (s : State) : (flagIf .v4 c s).v4 = (s.v4 || c) := rfl
@[simp] theorem flagIf_v4_bitsPending (c : Bool) (s : State) : (flagIf .v4 c s).bitsPending = s.bitsPending := rfl
@[simp] theorem flagIf_v4_settled (c : Bool) (s : State) : (flagIf .v4 c s).settled = s.settled := rfl
@[simp] theorem flagIf_v4_refused (c : Bool) (s : State) : (flagIf .v4 c s).refused = s.refused := rfl
@[simp] theorem flagIf_v4_pc (c : Bool) (s : State) : (flagIf .v4 c s).pc = s.pc := rfl
@[simp] theorem flagIf_v4_cmds (c : Bool) (s : State) : (flagIf .v4 c s).cmds = s.cmds := rfl
@[simp] theorem flagIf_v4_releaseOrder (c : Bool) (s : State) : (flagIf .v4 c s).releaseOrder = s.releaseOrder := rfl
@[simp] theorem flagIf_v4_envAnswers (c : Bool) (s : State) : (flagIf .v4 c s).envAnswers = s.envAnswers := rfl
@[simp] theorem flagIf_v4_draws (c : Bool) (s : State) : (flagIf .v4 c s).draws = s.draws := rfl

/-! ### issue ws s -/

@[simp] theorem issue_drvScl (ws : List Word) (s : State) : (issue ws s).drvScl = s.drvScl := rfl
@[simp] theorem issue_drvSda (ws : List Word) (s : State) : (issue ws s).drvSda = s.drvSda := rfl
@[simp] theorem issue_res (ws : List Word) (s : State) : (issue ws s).res = s.res := rfl
@[simp] theorem issue_log (ws : List Word) (s : State) : (issue ws s).log = s.log := rfl
@[simp] theorem issue_v1 (ws : List Word) (s : State) : (issue ws s).v1 = s.v1 := rfl
@[simp] theorem issue_v2 (ws : List Word) (s : State) : (issue ws s).v2 = s.v2 := rfl
@[simp] theorem issue_v3 (ws : List Word) (s : State) : (issue ws s).v3 = s.v3 := rfl
@[simp] theorem issue_v4 (ws : List Word) (s : State) : (issue ws s).v4 = s.v4 := rfl
@[simp] theorem issue_bitsPending (ws : List Word) (s : State) : (issue ws s).bitsPending = s.bitsPending := rfl
@[simp] theorem issue_settled (ws : List Word) (s : State) : (issue ws s).settled = s.settled := rfl
@[simp] theorem issue_refused (ws : List Word) (s : State) : (issue ws s).refused = s.refused := rfl
@[simp] theorem issue_pc (ws : List Word) (s : State) : (issue ws s).pc = s.pc := rfl
@[simp] theorem issue_cmds (ws : List Word) (s : State) : (issue ws s).cmds = s.cmds ++ ws := rfl
@[simp] theorem issue_releaseOrder (ws : List Word) (s : State) : (issue ws s).releaseOrder = s.releaseOrder := rfl
@[simp] theorem issue_envAnswers (ws : List Word) (s : State) : (issue ws s).envAnswers = s.envAnswers := rfl
@[simp] theorem issue_draws (ws : List Word) (s : State) : (issue ws s).draws = s.draws := rfl

end Sys2Proof.Machine
end

