-- ==== Sys2Proof/Laws/Ops.lean ====
section
/-! SUPPORT. One equation per shared operation, saying everything it does: the line action, the wait, the sample, the
release of both lines, the bit slots, the acknowledgment window and the four monitors. -/

namespace Sys2Proof.Machine

/-! ### Line actions and waits -/

theorem drive_scl (d : Drive) (s : State) :
    drive .scl d s = { s with
      drvScl := d, log := s.log ++ [.act .scl d], settled := s.settled && !(s.drvScl != d) } := rfl

theorem drive_sda (d : Drive) (s : State) :
    drive .sda d s = { s with
      drvSda := d, log := s.log ++ [.act .sda d], settled := s.settled && !(s.drvSda != d) } := rfl

theorem wait_eq (e : Event) (s : State) :
    wait e s = { s with log := s.log ++ [e], settled := true } := rfl

theorem delay_eq (s : State) : delay s = { s with log := s.log ++ [.q], settled := true } := rfl

/-- A line action changes its own line only, and only to the state it writes. -/
theorem drv_drive (l m : Line) (d : Drive) (s : State) :
    drv m (drive l d s) = if m = l then d else drv m s := by
  cases l <;> cases m <;> rfl

/-! ### Sampling -/

theorem sample_low {s : State} (h : s.drvSda = .low) :
    sampleBit s = false ∧ sample s = { s with log := s.log ++ [.smp false] } := by
  simp [sample, sampleBit, afterDraw, h, emit]

theorem sample_released {s : State} (h : s.drvSda = .released) :
    sampleBit s = envBit s ∧ sample s = { s with
      log := s.log ++ [.smp (envBit s)], envAnswers := s.envAnswers.tail, draws := s.draws + 1 } := by
  simp [sample, sampleBit, afterDraw, h, emit, drawn]

theorem sample_unknown {s : State} (h : s.drvSda = .unknown) :
    sampleBit s = Config.unknownSda s.draws ∧ sample s = { s with
      log := s.log ++ [.smp (Config.unknownSda s.draws)], draws := s.draws + 1 } := by
  simp [sample, sampleBit, afterDraw, h, emit, drawnFree]

/-! ### Releasing both lines -/

theorem releaseBoth_sdaFirst {s : State} (h : s.releaseOrder = .sdaFirst) :
    releaseBoth s = { s with
      drvScl := .released, drvSda := .released,
      log := s.log ++ [.act .sda .released, .act .scl .released],
      settled := s.settled && !(s.drvSda != .released) && !(s.drvScl != .released) } := by
  simp [releaseBoth, h, drive_scl, drive_sda]

theorem releaseBoth_sclFirst {s : State} (h : s.releaseOrder = .sclFirst) :
    releaseBoth s = { s with
      drvScl := .released, drvSda := .released,
      log := s.log ++ [.act .scl .released, .act .sda .released],
      settled := s.settled && !(s.drvScl != .released) && !(s.drvSda != .released) } := by
  simp [releaseBoth, h, drive_scl, drive_sda]

/-- In either order both lines end released; the order shows in the log only. -/
theorem releaseBoth_eq (s : State) :
    releaseBoth s = { s with
      drvScl := .released, drvSda := .released, log := s.log ++ releaseEvents s.releaseOrder,
      settled := s.settled && !(s.drvSda != .released) && !(s.drvScl != .released) } := by
  cases h : s.releaseOrder
  · rw [releaseBoth_sdaFirst h]; simp [releaseEvents, h]
  · rw [releaseBoth_sclFirst h]
    simp [releaseEvents, h, Bool.and_assoc, Bool.and_comm (!(s.drvScl != .released))]

/-! ### Bit slots -/

/-- A bit slot leaves the clock low, the data bit on `SDA`, and its six events in the log (R113). -/
theorem bitSlot_eq (b : Bit) (s : State) :
    bitSlot b s = { s with
      drvScl := .low, drvSda := dataDrive b, log := s.log ++ slotEvents b, settled := true } := by
  simp [bitSlot, drive_scl, drive_sda, delay_eq, slotEvents]

/-- Eight slots put the bits of the byte out, bit 7 first (R42, R105). -/
theorem bitSlotsDown_eight (v : Byte) (s : State) :
    bitSlotsDown v 8 s = { s with
      drvScl := .low, drvSda := dataDrive (byteBit v 0),
      log := s.log ++ (wireBits v).flatMap slotEvents, settled := true } := by
  simp [bitSlotsDown, bitSlot_eq, wireBits]

/-- The acknowledgment window opens with the host off both lines (R105). -/
theorem ackWindow_eq (s : State) :
    ackWindow s = { s with
      drvScl := .released, drvSda := .released,
      log := s.log ++ [.act .sda .released, .q, .act .scl .released, .q], settled := true } := by
  simp [ackWindow, drive_scl, drive_sda, delay_eq]

/-! ### Monitors -/

theorem monitorV1_eq (s : State) : monitorV1 s = { s with v1 := s.v1 || s.bitsPending != 0 } := rfl

theorem monitorV2_eq (d : Drive) (s : State) :
    monitorV2 d s = { s with v2 := s.v2 || (s.drvSda != d && s.drvScl != .low) } := rfl

theorem monitorV3_eq (s : State) : monitorV3 s = { s with v3 := s.v3 || s.drvScl != .low } := rfl

theorem monitorV4_eq (l : Line) (d : Drive) (s : State) :
    monitorV4 l d s = { s with v4 := s.v4 || (drv l s != d && !s.settled) } := rfl

end Sys2Proof.Machine
end

