-- ==== Sys2Proof/Laws/PerInstr.lean ====
section
/-! SUPPORT. One family of statements about the commands as syntax, `MaskedWord`: the word of a command, its operand bits
masked off as R63 gives its form, is the row's match word. -/

namespace Sys2Proof.Laws.MaskedWord

/-- The row's match and mask fit the command's word (R63, spec/opcode_table.json). -/
def Statement (i : Instr) : Prop := encode i &&& Machine.formMask i.form = i.matchWord

theorem driveLowScl : Statement .driveLowScl := by unfold Statement; decide
theorem releaseScl : Statement .releaseScl := by unfold Statement; decide
theorem driveLowSda : Statement .driveLowSda := by unfold Statement; decide
theorem releaseSda : Statement .releaseSda := by unfold Statement; decide
theorem senseSda : Statement .senseSda := by unfold Statement; decide
theorem waitQ : Statement .waitQ := by unfold Statement; decide
theorem idle : Statement .idle := by unfold Statement; decide
theorem start : Statement .start := by unfold Statement; decide
theorem stop : Statement .stop := by unfold Statement; decide

theorem writeBit (b : Bit) : Statement (.writeBit b) := by unfold Statement; cases b <;> decide

/-- A form that admits every `ARG` masks all of it off. -/
theorem operand_masked_off (op arg : Byte) : (op ++ arg : Word) &&& 0xFF00#16 = op ++ 0x00#8 := by
  apply BitVec.eq_of_getLsbD_eq
  intro i hi
  rw [BitVec.getLsbD_and, getLsbD_fields, getLsbD_fields]
  interval_cases i <;> simp

theorem waitMs (n : Nat) : Statement (.waitMs n) := operand_masked_off _ _
theorem waitS (n : Nat) : Statement (.waitS n) := operand_masked_off _ _
theorem writeByte (v : Byte) : Statement (.writeByte v) := operand_masked_off _ _

end Sys2Proof.Laws.MaskedWord
end

