-- ==== Sys2Proof/Laws/Step.lean ====
section
/-! SUPPORT. What a step can do, said once: if it answers a next state, the word was refused and only `REFUSED` is set,
or a decoded command ran. -/

namespace Sys2Proof.Machine

theorem fetch_run {s : State} {i : Instr} (h : fetch s = .run i) :
    s.refused = false ∧ ∃ w, commandWord s = some w ∧ decode w = .ok i := by
  unfold fetch at h
  split at h
  · cases h
  · next hr =>
    refine ⟨by simpa using hr, ?_⟩
    split at h
    · cases h
    · next w hw =>
      split at h
      · cases h
      · next j hj => cases h; exact ⟨w, hw, hj⟩

theorem fetch_refusedWord {s t : State} (h : fetch s = .refusedWord t) :
    s.refused = false ∧ t = markRefused s ∧ ∃ w why, commandWord s = some w ∧ decode w = .error why := by
  unfold fetch at h
  split at h
  · cases h
  · next hr =>
    refine ⟨by simpa using hr, ?_⟩
    split at h
    · cases h
    · next w hw =>
      split at h
      · next why hd => cases h; exact ⟨rfl, w, why, hw, hd⟩
      · cases h

theorem step_cases {s t : State} (h : step s = .next t) :
    (s.refused = false ∧ t = markRefused s ∧ ∃ w why, commandWord s = some w ∧ decode w = .error why) ∨
    (s.refused = false ∧ ∃ w i, commandWord s = some w ∧ decode w = .ok i ∧ exec i s = .next t) := by
  unfold step at h
  split at h
  · cases h
  · next u hu => cases h; exact .inl (fetch_refusedWord hu)
  · next i hi =>
    obtain ⟨hr, w, hw, hd⟩ := fetch_run hi
    exact .inr ⟨hr, w, i, hw, hd, h⟩

/-- A word placed at an index is found there. -/
theorem placeWord_get (w : Word) (k : Nat) (ws : List Word) : (placeWord w k ws)[k]? = some w := by
  induction k generalizing ws with
  | zero => rfl
  | succ k ih => simpa [placeWord] using ih ws.tail

/-- A placed word is what the command port takes next. -/
theorem commandWord_placeNext (w : Word) (s : State) : commandWord (placeNext w s) = some w :=
  placeWord_get w s.pc s.cmds

end Sys2Proof.Machine
end

