-- ==== Sys2Proof/Tests/Slice0.lean ====
section
/-! SUPPORT. Tests: what WellFormed refuses, a written-out word per command (spec/30_encoding.md rule R62), the decoding
and command vectors of spec/95_test_vectors.md sections 2.1 to 2.5, and a witness for the hypotheses of each statement
that has some. -/

namespace Sys2Proof.Tests

open Sys2Proof.Machine Sys2Proof.Safety

/-! ### Helpers -/

/-- The state a command answers, if it answers one. -/
def after (i : Instr) (s : State) : Option State := execAll [i] s

/-- The state a step answers, if it answers one. -/
def stepped (s : State) : Option State :=
  match step s with
  | .next t => some t
  | .fault _ => none
  | .refused _ => none

/-- The reset state with its lines set. -/
def onBus (scl sda : Drive) : State :=
  { State.reset with drvScl := scl, drvSda := sda }

/-- What a vector's line says of a state: the lines, the result, `settled`, the flags set, `bits_pending`. -/
structure Summary where
  scl : Drive
  sda : Drive
  res : ResultValue
  settled : Bool
  flags : List Flag
  pending : Nat
  deriving DecidableEq, Repr

/-- The summary of a state. -/
def summary (s : State) : Summary :=
  ⟨s.drvScl, s.drvSda, s.res, s.settled,
    (if s.v1 then [.v1] else []) ++ (if s.v2 then [.v2] else []) ++ (if s.v3 then [.v3] else []) ++
      (if s.v4 then [.v4] else []), s.bitsPending⟩

/-! ### WellFormed smoke tests -/

theorem test_wellFormed_refuses_long_waitMs : (Instr.waitMs 256).wellFormed = false := by decide
theorem test_wellFormed_refuses_long_waitS : (Instr.waitS 256).wellFormed = false := by decide
theorem test_wellFormed_admits_longest_waits :
    (Instr.waitMs 255).wellFormed = true ∧ (Instr.waitS 255).wellFormed = true := by decide

/-! ### One written-out word per command (R62), then the refusals (section 2.1) -/

theorem test_word_driveLowScl : decode 0b0001000000000000#16 = .ok .driveLowScl := by rfl
theorem test_word_releaseScl : decode 0b0001000100000000#16 = .ok .releaseScl := by rfl
theorem test_word_driveLowSda : decode 0b0001001000000000#16 = .ok .driveLowSda := by rfl
theorem test_word_releaseSda : decode 0b0001001100000000#16 = .ok .releaseSda := by rfl
theorem test_word_senseSda : decode 0b0001010000000000#16 = .ok .senseSda := by rfl
theorem test_word_waitQ : decode 0b0010000000000000#16 = .ok .waitQ := by rfl
theorem test_word_waitMs : decode 0b0010000111111111#16 = .ok (.waitMs 255) := by rfl
theorem test_word_waitS : decode 0b0010001000000011#16 = .ok (.waitS 3) := by rfl
theorem test_word_idle : decode 0b0011000000000000#16 = .ok .idle := by rfl
theorem test_word_start : decode 0b0011000100000000#16 = .ok .start := by rfl
theorem test_word_writeBit :
    decode 0b0011001000000000#16 = .ok (.writeBit false) ∧ decode 0b0011001000000001#16 = .ok (.writeBit true) :=
  ⟨rfl, rfl⟩
theorem test_word_writeByte : decode 0b0011001110101111#16 = .ok (.writeByte 0xAF#8) := by rfl
theorem test_word_stop : decode 0b0011010000000000#16 = .ok .stop := by rfl

/-- TD1, TD2, TD7, TD14, TD26, TD27. -/
theorem test_refused_reservedOpcode :
    ∀ w ∈ [0x0000#16, 0x0F00#16, 0x1500#16, 0x2300#16, 0x3500#16, 0xFFFF#16],
      decode w = .error .reservedOpcode := by
  simp only [List.mem_cons, List.not_mem_nil, or_false, forall_eq_or_imp, forall_eq]
  exact ⟨rfl, rfl, rfl, rfl, rfl, rfl⟩

/-- TD4, TD6, TD9, TD16, TD25. -/
theorem test_refused_nonzeroArg :
    ∀ w ∈ [0x1001#16, 0x1480#16, 0x20FF#16, 0x3001#16, 0x3401#16], decode w = .error .nonzeroArg := by
  simp only [List.mem_cons, List.not_mem_nil, or_false, forall_eq_or_imp, forall_eq]
  exact ⟨rfl, rfl, rfl, rfl, rfl⟩

/-- TD20, TD21. -/
theorem test_refused_bitArgRange :
    decode 0x3202#16 = .error .bitArgRange ∧ decode 0x32FF#16 = .error .bitArgRange := ⟨rfl, rfl⟩

theorem test_decodeTableWord : decodeTableWord 16 0x2114 = some (.waitMs 20) ∧ decodeTableWord 32 0x2114 = none :=
  ⟨rfl, rfl⟩

theorem test_assembler_line : assembleLine "wait_milliseconds 20   ; reset pulse" = some [.waitMs 20] := by decide
theorem test_assembler_refuses : assembleLine "write_bit 2" = none ∧ assembleLine "write_byte 256" = none := by
  decide

/-! ### The Bus Line Driver (section 2.2) -/

/-- TL2: no transition, logged all the same. -/
theorem test_driveLowScl_again :
    (after .driveLowScl (onBus .low .released)).map (fun t => (t.log, t.settled)) =
      some ([.act .scl .low], true) := by decide

/-- TL3: a transition from `Unknown`. -/
theorem test_releaseScl_from_unknown :
    (after .releaseScl State.reset).map summary =
      some ⟨.released, .unknown, .unknown, false, [], 0⟩ := by decide

/-- TL5: `V2`. -/
theorem test_driveLowSda_flags_v2 :
    (after .driveLowSda (onBus .released .released)).map summary =
      some ⟨.released, .low, .unknown, false, [.v2], 0⟩ := by decide

/-- TL8: `V4`. -/
theorem test_driveLowSda_flags_v4 :
    (after .driveLowSda { onBus .low .released with settled := false }).map summary =
      some ⟨.low, .low, .unknown, false, [.v4], 0⟩ := by decide

/-- TL7: no transition, so no `V2`. -/
theorem test_releaseSda_no_transition :
    (after .releaseSda (onBus .unknown .released)).map summary =
      some ⟨.unknown, .released, .unknown, true, [], 0⟩ := by decide

/-- TL9: the host's own drive holds the line low, whatever the environment would answer. -/
theorem test_senseSda_low :
    (after .senseSda { onBus .low .low with envAnswers := [true] }).map (fun t => (t.res, t.log)) =
      some (.zero, [.smp false]) := by decide

/-- TL10. -/
theorem test_senseSda_released :
    (after .senseSda { onBus .low .released with envAnswers := [true] }).map (fun t => (t.res, t.log)) =
      some (.one, [.smp true]) := by decide

/-! ### The Timing Primitive (section 2.3) -/

/-- TT1. -/
theorem test_waitQ_settles :
    (after .waitQ { onBus .low .released with settled := false }).map (fun t => (t.log, t.settled)) =
      some ([.q], true) := by decide

/-- TT2: no time passes, and the event is logged. -/
theorem test_waitMs_zero : (after (.waitMs 0) State.reset).map (·.log) = some [.ms 0] := by decide

/-- TT5. -/
theorem test_waitS_three : (after (.waitS 3) State.reset).map (·.log) = some [.sec 3] := by decide

/-! ### The I2C Transaction Engine (section 2.4) -/

/-- TE1. -/
theorem test_idle_from_reset :
    (after .idle State.reset).map (fun t => (t.log, summary t)) =
      some ([.act .sda .released, .act .scl .released],
        ⟨.released, .released, .unknown, false, [], 0⟩) := by decide

/-- TE3. -/
theorem test_start_from_idle :
    (after .start (onBus .released .released)).map (fun t => (t.log, summary t)) =
      some ([.act .sda .released, .act .scl .released, .q, .act .sda .low, .q, .act .scl .low, .q],
        ⟨.low, .low, .unknown, true, [], 0⟩) := by decide

/-- TE13, TM1: START during an unfinished byte. -/
theorem test_start_flags_v1 :
    (after .start { onBus .low .released with bitsPending := 3 }).map summary =
      some ⟨.low, .low, .unknown, true, [.v1], 0⟩ := by decide

/-- TE5b. -/
theorem test_writeBit_one :
    (after (.writeBit true) (onBus .low .low)).map (fun t => (t.log, summary t)) =
      some ([.act .sda .released, .q, .act .scl .released, .q, .act .scl .low, .q],
        ⟨.low, .released, .unknown, true, [], 1⟩) := by decide

/-- TM3: `V3`. -/
theorem test_writeBit_flags_v3 :
    (after (.writeBit false) (onBus .released .released)).map summary =
      some ⟨.low, .low, .unknown, true, [.v3], 1⟩ := by decide

/-- TE8: `0xA5` writes the slots `1 0 1 0 0 1 0 1`, acknowledged. -/
theorem test_writeByte_a5 :
    (after (.writeByte 0xA5#8) { onBus .low .low with envAnswers := [false] }).map (fun t => (t.log, t.res)) =
      some ([true, false, true, false, false, true, false, true].flatMap slotEvents ++ ackEvents false, .one) := by
  decide

/-- TE7: not acknowledged. -/
theorem test_writeByte_not_acknowledged :
    (after (.writeByte 0xFF#8) { onBus .low .low with envAnswers := [true] }).map summary =
      some ⟨.low, .released, .zero, true, [], 0⟩ := by decide

/-- TE9. -/
theorem test_stop_after_byte :
    (after .stop { onBus .low .released with bitsPending := 1 }).map (fun t => (t.log, summary t)) =
      some ([.act .sda .low, .q, .act .scl .released, .q, .act .sda .released, .q],
        ⟨.released, .released, .unknown, true, [], 0⟩) := by decide

/-! ### The wire (R111) -/

/-- TE15: a byte begun with a WRITE_BIT falls one slot off. -/
theorem test_wire_one_slot_off :
    wireItems (commandEvents .sdaFirst false .start ++ commandEvents .sdaFirst false (.writeBit true) ++
      commandEvents .sdaFirst false (.writeByte 0x78#8)) =
      [.startCondition, .wireByte 0xBC#8 false []] := by decide

/-- TE13: a group that a START condition ends is a partial byte. -/
theorem test_wire_partial_byte :
    wireItems (commandEvents .sdaFirst false .start ++ slotEvents true ++ slotEvents false ++ slotEvents true ++
      commandEvents .sdaFirst false .start) =
      [.startCondition, .partialByte 3, .startCondition] := by decide

/-- R27: the delays before the first and after the last transition are no part of the waveform. -/
theorem test_waveform :
    waveform Lines.atReset [.ms 20] = [] ∧
    waveform Lines.atReset [.ms 20, .act .scl .low, .q, .act .scl .low, .q, .act .scl .released, .sec 1] =
      [.act .scl .low, .q, .q, .act .scl .released] := by decide

/-! ### The step -/

/-- TD28: the refused word sets `REFUSED`, and `pc` stays. -/
theorem test_step_refused_word :
    (stepped (issue [0x3202#16, 0x3100#16] State.reset)).map (fun t => (t.refused, t.pc, t.log)) =
      some (true, 0, []) := by decide

/-- A word placed for the next fetch runs first after reset. -/
theorem test_withFetchWord_runs :
    (stepped (State.reset.withFetchWord 16 0x2114)).map (fun t => (t.log, t.pc)) = some ([.ms 20], 1) := by decide

theorem test_readRes_unknown : readRes State.reset = .error .readUnknownResult := rfl

/-! ### Witnesses for the hypotheses of the statements -/

/-- DecodeOfEncode, AssemblerRoundTrip, EventsOfEveryCommand, EventCountsOfTheTable. -/
theorem witness_wellFormed : (Instr.waitMs 255).wellFormed = true ∧ (Instr.writeByte 0x00#8).wellFormed = true := by
  decide

/-- EncodeOfDecode. -/
theorem witness_decoded : decode 0x22FF#16 = .ok (.waitS 255) := rfl

/-- DecoderOfEveryOpcode's last clause, beside the opcodes it leaves out. -/
theorem witness_unlisted_opcode :
    0x15#8 ∉ [0x10#8, 0x11#8, 0x12#8, 0x13#8, 0x14#8, 0x20#8, 0x21#8, 0x22#8, 0x30#8, 0x31#8, 0x32#8, 0x33#8, 0x34#8] := by
  decide

/-- ReservedEncodingsRefused, each clause at the ends of its range. -/
theorem witness_reserved_ranges :
    (opField 0x0FFF#16).toNat = 0x0F ∧ (opField 0x1500#16).toNat = 0x15 ∧ (opField 0x1FFF#16).toNat = 0x1F ∧
    (opField 0x2300#16).toNat = 0x23 ∧ (opField 0x2FFF#16).toNat = 0x2F ∧ (opField 0x3500#16).toNat = 0x35 ∧
    Instr.stop.form = .none ∧ (0x01#8 : Byte) ≠ 0x00#8 ∧ (0x02#8 : Byte).extractLsb' 1 7 ≠ 0#7 := by
  decide

/-- StepRunsDecodedCommand. -/
theorem witness_step_decodes :
    ∃ (s : State) (w : Word) (i : Instr), s.refused = false ∧ s.cmds[s.pc]? = some w ∧ decode w = .ok i :=
  ⟨issue [0x3400#16] State.reset, 0x3400#16, .stop, rfl, rfl, rfl⟩

/-- RefusedWordOnlySetsItsMark. -/
theorem witness_step_refuses :
    ∃ (s : State) (w : Word) (why : WordRefusal),
      s.refused = false ∧ s.cmds[s.pc]? = some w ∧ decode w = .error why :=
  ⟨issue [0x3202#16] State.reset, 0x3202#16, .bitArgRange, rfl, rfl, rfl⟩

/-- EndedRunHasNoStep, both clauses. -/
theorem witness_ended_runs :
    (markRefused State.reset).refused = true ∧
    (State.reset.refused = false ∧ State.reset.cmds.length ≤ State.reset.pc) := by decide

/-- SenseSdaResult's clauses, SampleReadsLineLevel. -/
theorem witness_sensed_lines :
    (onBus .low .low).drvSda = .low ∧ (onBus .low .released).drvSda = .released ∧
    (onBus .low .released).drvSda ≠ .unknown := by decide

/-- SamplesTakeAnswersInOrder, with a released line and with another. -/
theorem witness_listed_answers :
    (∃ s : State, s.envAnswers = true :: [false] ∧ s.drvSda = .released) ∧
    (∃ s : State, s.envAnswers = false :: [] ∧ s.drvSda ≠ .released) :=
  ⟨⟨{ onBus .low .released with envAnswers := [true, false] }, rfl, rfl⟩,
    ⟨{ onBus .low .low with envAnswers := [false] }, rfl, by decide⟩⟩

/-- LineDriveIsIdempotent. -/
theorem witness_idempotent :
    (Instr.releaseSda, Line.sda, Drive.released) ∈ [(Instr.driveLowScl, Line.scl, Drive.low),
      (.releaseScl, .scl, .released), (.driveLowSda, .sda, .low), (.releaseSda, .sda, .released)] ∧
    drv .sda (onBus .low .released) = .released := by decide

/-- WaitMillisecondsResult, WaitSecondsResult: the ends of the range. -/
theorem witness_wait_counts : 0 ≤ 255 ∧ 255 ≤ 255 := by decide

/-- WaveformIsTransitionsAndDelaysBetween, the clause on two consecutive transitions: a wait and an action that is no
transition stand between them. -/
theorem witness_consecutive_transitions :
    isTransition (linesAfter Lines.atReset [.ms 20]) (.act .scl .low) = true ∧
    transitions (linesAfter Lines.atReset [.ms 20, .act .scl .low]) [.q, .act .scl .low] = [] ∧
    isTransition (linesAfter Lines.atReset [.ms 20, .act .scl .low, .q, .act .scl .low]) (.act .scl .released) =
      true := by decide

/-- TimingCommandsSettleTheBus. -/
theorem witness_timing : (Instr.waitS 0).subBlock = .timing := rfl

/-- IdleResult, StartResult; OtherReleaseOrderSwapsTwoEvents. -/
theorem witness_release_orders :
    State.reset.releaseOrder = .sdaFirst ∧
    ({ State.reset with releaseOrder := .sclFirst } : State).releaseOrder = .sclFirst := ⟨rfl, rfl⟩

/-- MostSignificantBitFirst, the ends of `k`. -/
theorem witness_bit_positions : 0 < 8 ∧ 7 < 8 := by decide

/-- DataChangesOnlyUnderLowClock, both clauses. -/
theorem witness_clock_low :
    (onBus .low .released).drvScl = .low ∧
    (∀ i ∈ [Instr.writeBit true, .writeByte 0x78#8], (∃ b, i = .writeBit b) ∨ ∃ v, i = .writeByte v) ∧
    (onBus .released .released).drvScl = .released := by
  refine ⟨rfl, ?_, rfl⟩
  simp

/-- QuantumBetweenTransitions; ResultRegisterWriters' third clause. -/
theorem witness_commands :
    (Instr.stop = .stop ∨ (∃ b, Instr.stop = .writeBit b) ∨ ∃ v, Instr.stop = .writeByte v) ∧
    (∀ v, Instr.idle ≠ .writeByte v) ∧ Instr.idle ≠ .senseSda :=
  ⟨.inl rfl, by simp, by simp⟩

/-- BookkeepingDoesNotAffectTheBlock: two states that differ in the bookkeeping and in `pc`. -/
theorem witness_sameBus :
    SameBus State.reset { State.reset with v1 := true, bitsPending := 3, settled := false, pc := 7 } ∧
    State.reset ≠ { State.reset with v1 := true, bitsPending := 3, settled := false, pc := 7 } :=
  ⟨⟨rfl, rfl, rfl, rfl, rfl, rfl⟩, by decide⟩

/-- BitsPendingCountsWriteBits, each clause. -/
theorem witness_bits_pending :
    (∃ b, Instr.writeBit true = .writeBit b) ∧
    (Instr.start = .idle ∨ Instr.start = .start ∨ (∃ v, Instr.start = .writeByte v) ∨ Instr.start = .stop) ∧
    (Instr.senseSda.subBlock = .lineDriver ∨ Instr.senseSda.subBlock = .timing) :=
  ⟨⟨true, rfl⟩, .inr (.inl rfl), .inl rfl⟩

/-- FlagsAndLogNeverShrink, LinesFollowLineActions: a step from a state with a flag set and its lines known. -/
theorem witness_step_with_flag :
    ∃ s t : State, step s = .next t ∧ s.v3 = true ∧ drv .sda s ≠ .unknown :=
  ⟨{ onBus .low .low with v3 := true, cmds := [0x3400#16] }, _, rfl, rfl, by decide⟩

/-- WholeByteFrameSetsNoFlag. -/
theorem witness_flagFree : flagFree State.reset = true ∧ State.reset.bitsPending = 0 := by decide

/-- IssueKeepsInvariant, StepKeepsInvariant: a state that meets the invariant and has a next state. -/
theorem witness_inv_step : ∃ s t : State, Inv s ∧ core.step s = .next t :=
  ⟨issue [0x3000#16] State.reset, _,
    ⟨⟨rfl, rfl, rfl⟩, ⟨fun _ => rfl, fun _ => rfl⟩, ⟨by decide, fun h => by cases h⟩⟩, rfl⟩

/-- EndOfRefusedRunNamesItsReason: the invariant in a refused run. -/
theorem witness_inv_refused : ∃ s : State, Inv s ∧ s.refused = true :=
  ⟨markRefused (issue [0x0000#16] State.reset),
    ⟨⟨rfl, rfl, rfl⟩, ⟨fun _ => rfl, fun _ => rfl⟩,
      ⟨by decide, fun _ => ⟨0x0000#16, .reservedOpcode, rfl, rfl⟩⟩⟩, rfl⟩

/-- RepeatedStartAddsOneCondition: the clock low, a frame begun, no bit slot pending. -/
theorem witness_repeated_start :
    ∃ s : State, LogExplainsLines s ∧ s.releaseOrder = .sdaFirst ∧ s.drvScl = .low ∧
      (wireWalk s.log).group = [] :=
  ⟨{ onBus .low .low with log := commandEvents .sdaFirst false .start }, ⟨rfl, rfl, rfl⟩, rfl, rfl, rfl⟩

/-- The wire clauses of the results: DriveLowSdaResult and StopResult (idle bus), ReleaseSdaResult and IdleResult,
StopResult (low clock), StartResult. -/
theorem witness_wire_walks :
    (wireWalk [.act .scl .released, .act .sda .released]).lines = ⟨.released, .released⟩ ∧
    (wireWalk [.act .scl .released, .act .sda .low]).lines = ⟨.released, .low⟩ ∧
    (wireWalk [.act .scl .low, .act .sda .released]).lines = ⟨.low, .released⟩ ∧
    ((wireWalk [.act .scl .low]).lines.scl = .low ∧ (wireWalk [.act .scl .low]).period = none ∧
      (wireWalk [.act .scl .low]).group = []) := by decide

/-- StopOnIdleBusIsEmptyPair. -/
theorem witness_idle_bus :
    ∃ s : State, LogExplainsLines s ∧ linesOf s = ⟨.released, .released⟩ ∧ (wireWalk s.log).group = [] :=
  ⟨{ onBus .released .released with log := commandEvents .sdaFirst false .idle, settled := false },
    ⟨rfl, rfl, rfl⟩, rfl, rfl⟩

end Sys2Proof.Tests
end

section
/-! The next state of every command, each field said once, and what the proofs about `RES` read off it. -/

namespace Sys2Proof.Machine

/-! ### Operations -/

/-- A sample logs the level it reads; its draw touches the environment's two fields only. -/
theorem sample_eq (s : State) :
    sample s = { s with
      log := s.log ++ [.smp (sampleBit s)]
      envAnswers := (afterDraw s).envAnswers, draws := (afterDraw s).draws } := by
  cases h : s.drvSda <;> simp [sample, afterDraw, emit, drawn, drawnFree, h]

@[simp] theorem resultOf_eq_one_iff (b : Bit) : resultOf b = .one ↔ b = true := by
  cases b <;> simp [resultOf]

@[simp] theorem resultOf_eq_zero_iff (b : Bit) : resultOf b = .zero ↔ b = false := by
  cases b <;> simp [resultOf]

/-- The events gained are those appended to the log. -/
theorem gained_of_log_eq_append {s t : State} {es : List Event} (h : t.log = s.log ++ es) : gained s t = es := by
  rw [gained, h, List.drop_left]

/-! ### The Bus Line Driver -/

/-- R80. -/
theorem exec_driveLowScl (s : State) :
    exec .driveLowScl s = .next { s with
      drvScl := .low, log := s.log ++ [.act .scl .low]
      v4 := s.v4 || (s.drvScl != .low && !s.settled)
      settled := s.settled && !(s.drvScl != .low), pc := s.pc + 1 } := rfl

/-- R81. -/
theorem exec_releaseScl (s : State) :
    exec .releaseScl s = .next { s with
      drvScl := .released, log := s.log ++ [.act .scl .released]
      v4 := s.v4 || (s.drvScl != .released && !s.settled)
      settled := s.settled && !(s.drvScl != .released), pc := s.pc + 1 } := rfl

/-- R82. -/
theorem exec_driveLowSda (s : State) :
    exec .driveLowSda s = .next { s with
      drvSda := .low, log := s.log ++ [.act .sda .low]
      v2 := s.v2 || (s.drvSda != .low && s.drvScl != .low)
      v4 := s.v4 || (s.drvSda != .low && !s.settled)
      settled := s.settled && !(s.drvSda != .low), pc := s.pc + 1 } := rfl

/-- R83. -/
theorem exec_releaseSda (s : State) :
    exec .releaseSda s = .next { s with
      drvSda := .released, log := s.log ++ [.act .sda .released]
      v2 := s.v2 || (s.drvSda != .released && s.drvScl != .low)
      v4 := s.v4 || (s.drvSda != .released && !s.settled)
      settled := s.settled && !(s.drvSda != .released), pc := s.pc + 1 } := rfl

/-- R84. -/
theorem exec_senseSda (s : State) :
    exec .senseSda s = .next { s with
      res := resultOf (sampleBit s), log := s.log ++ [.smp (sampleBit s)], pc := s.pc + 1
      envAnswers := (afterDraw s).envAnswers, draws := (afterDraw s).draws } := by
  simp [exec, execSenseSda, sample_eq, setRes, complete]

/-! ### The Timing Primitive -/

/-- R90. -/
theorem exec_waitQ (s : State) :
    exec .waitQ s = .next { s with log := s.log ++ [.q], settled := true, pc := s.pc + 1 } := rfl

/-- R91. -/
theorem exec_waitMs (n : Nat) (s : State) :
    exec (.waitMs n) s = .next { s with log := s.log ++ [.ms n], settled := true, pc := s.pc + 1 } := rfl

/-- R92. -/
theorem exec_waitS (n : Nat) (s : State) :
    exec (.waitS n) s = .next { s with log := s.log ++ [.sec n], settled := true, pc := s.pc + 1 } := rfl

/-! ### The I2C Transaction Engine -/

/-- R100, in either release order. -/
theorem exec_idle (s : State) :
    exec .idle s = .next { s with
      drvScl := .released, drvSda := .released, log := s.log ++ releaseEvents s.releaseOrder
      settled := s.settled && !(s.drvSda != .released) && !(s.drvScl != .released)
      bitsPending := 0, pc := s.pc + 1 } := by
  simp [exec, execIdle, releaseBoth_eq, setBitsPending, complete]

/-- R101, in either release order. -/
theorem exec_start (s : State) :
    exec .start s = .next { s with
      drvScl := .low, drvSda := .low
      log := s.log ++ (releaseEvents s.releaseOrder ++ [.q, .act .sda .low, .q, .act .scl .low, .q])
      v1 := s.v1 || s.bitsPending != 0, settled := true, bitsPending := 0, pc := s.pc + 1 } := by
  simp [exec, execStart, monitorV1_eq, releaseBoth_eq, drive_scl, drive_sda, delay_eq, setBitsPending, complete]

/-- R103. -/
theorem exec_writeBit (b : Bit) (s : State) :
    exec (.writeBit b) s = .next { s with
      drvScl := .low, drvSda := dataDrive b, log := s.log ++ slotEvents b
      v3 := s.v3 || s.drvScl != .low, settled := true, bitsPending := s.bitsPending + 1, pc := s.pc + 1 } := by
  simp [exec, execWriteBit, monitorV3_eq, bitSlot_eq, setBitsPending, complete]

/-- R105, R106: the host is off `SDA` in the acknowledgment window, so the bit sampled is the environment's. -/
theorem exec_writeByte (v : Byte) (s : State) :
    exec (.writeByte v) s = .next { s with
      drvScl := .low, drvSda := .released, res := resultOf (acknowledged (envBit s))
      log := s.log ++ ((wireBits v).flatMap slotEvents ++ ackEvents (envBit s))
      v3 := s.v3 || s.drvScl != .low, settled := true, bitsPending := 0, pc := s.pc + 1
      envAnswers := s.envAnswers.tail, draws := s.draws + 1 } := by
  simp [exec, execWriteByte, monitorV3_eq, bitSlotsDown_eight, ackWindow_eq, sample_released, envBit, drive_scl,
    delay_eq, setRes, setBitsPending, complete, ackEvents]

/-- R107. -/
theorem exec_stop (s : State) :
    exec .stop s = .next { s with
      drvScl := .released, drvSda := .released
      log := s.log ++ [.act .sda .low, .q, .act .scl .released, .q, .act .sda .released, .q]
      settled := true, bitsPending := 0, pc := s.pc + 1 } := by
  simp [exec, execStop, drive_scl, drive_sda, delay_eq, setBitsPending, complete]

/-! ### The result register -/

/-- R26: a command other than its two writers leaves `RES` alone. -/
theorem exec_res_unchanged (i : Instr) (s : State) (hbyte : ∀ v, i ≠ .writeByte v) (hsense : i ≠ .senseSda) :
    ∃ t, exec i s = .next t ∧ t.res = s.res := by
  cases i with
  | driveLowScl => exact ⟨_, exec_driveLowScl s, rfl⟩
  | releaseScl => exact ⟨_, exec_releaseScl s, rfl⟩
  | driveLowSda => exact ⟨_, exec_driveLowSda s, rfl⟩
  | releaseSda => exact ⟨_, exec_releaseSda s, rfl⟩
  | senseSda => exact absurd rfl hsense
  | waitQ => exact ⟨_, exec_waitQ s, rfl⟩
  | waitMs n => exact ⟨_, exec_waitMs n s, rfl⟩
  | waitS n => exact ⟨_, exec_waitS n s, rfl⟩
  | idle => exact ⟨_, exec_idle s, rfl⟩
  | start => exact ⟨_, exec_start s, rfl⟩
  | writeBit b => exact ⟨_, exec_writeBit b s, rfl⟩
  | writeByte v => exact absurd rfl (hbyte v)
  | stop => exact ⟨_, exec_stop s, rfl⟩

/-- R106: WRITE_BYTE leaves 1 exactly where the bit it sampled is 0. -/
theorem exec_writeByte_res (v : Byte) (s : State) :
    ∃ x t, exec (.writeByte v) s = .next t ∧ Event.smp x ∈ gained s t ∧
      (t.res = .one ↔ x = false) ∧ (t.res = .zero ↔ x = true) := by
  refine ⟨envBit s, _, exec_writeByte v s, ?_, ?_, ?_⟩
  · rw [gained_of_log_eq_append rfl]
    simp [ackEvents]
  · simp [acknowledged]
  · simp [acknowledged]

/-- R84: SENSE leaves the level it sampled. -/
theorem exec_senseSda_res (s : State) :
    ∃ b t, exec .senseSda s = .next t ∧ gained s t = [.smp b] ∧
      (t.res = .one ↔ b = true) ∧ (t.res = .zero ↔ b = false) :=
  ⟨sampleBit s, _, exec_senseSda s, gained_of_log_eq_append rfl, resultOf_eq_one_iff _, resultOf_eq_zero_iff _⟩

/-- R26, D7: what the host's read answers for each value of `RES`. -/
theorem readRes_iff (s : State) :
    (readRes s = .error .readUnknownResult ↔ s.res = .unknown) ∧
      (readRes s = .ok false ↔ s.res = .zero) ∧ (readRes s = .ok true ↔ s.res = .one) := by
  cases h : s.res <;> simp [readRes, h]

/-! ### The obligations -/

/-- Settles O8: the reset state holds the values R31 lists. -/
theorem resetValues : Obligations.ResetValues :=
  ⟨rfl, rfl, rfl, rfl, rfl, rfl, rfl, rfl, rfl, rfl, rfl, rfl⟩

/-- Settles O41: the two writers of `RES`, the frame of every other command, and the host's read. -/
theorem resultRegisterWriters : Obligations.ResultRegisterWriters :=
  ⟨exec_writeByte_res, exec_senseSda_res, exec_res_unchanged, readRes_iff⟩

end Sys2Proof.Machine
end

section
/-! The slots of a byte as they stand in the log (R42): the `k`-th six events of a row of bit slots are the slot of its
`k`-th bit. -/

namespace Sys2Proof.Machine

/-- The block of six events at position `6 * k` is the slot of the `k`-th bit, whatever follows the slots. -/
theorem take_drop_flatMap_slotEvents {bs : List Bit} {k : Nat} {b : Bit} (h : bs[k]? = some b) (es : List Event) :
    ((bs.flatMap slotEvents ++ es).drop (6 * k)).take 6 = slotEvents b := by
  induction bs generalizing k with
  | nil => cases h
  | cons c bs ih =>
    cases k with
    | zero => cases h; rfl
    | succ k => exact ih h

/-- R42: bit `7 - k` is the `k`-th to go out. -/
theorem wireBits_getElem? (v : Byte) {k : Nat} (hk : k < 8) : (wireBits v)[k]? = some (v.getLsbD (7 - k)) := by
  interval_cases k <;> rfl

/-- The eight slots are 48 events; what follows them is left. -/
theorem drop_flatMap_wireBits (v : Byte) (es : List Event) :
    ((wireBits v).flatMap slotEvents ++ es).drop 48 = es := rfl

/-- Settles O32: the slots of the byte's bits, most significant first, then the acknowledgment read. -/
theorem mostSignificantBitFirst : Obligations.MostSignificantBitFirst := by
  intro v s
  refine ⟨_, exec_writeByte v s, ?_⟩
  rw [gained_of_log_eq_append rfl]
  exact ⟨fun k hk => take_drop_flatMap_slotEvents (wireBits_getElem? v hk) _, envBit s, drop_flatMap_wireBits v _⟩

end Sys2Proof.Machine
end

section
/-! The decoder by rows of the opcode map (R62, R69): what a listed opcode's row makes of every `ARG`, that an opcode
without a row is refused, and how many words each operand form admits (R61, R66). -/

namespace Sys2Proof

open Machine

/-! ### The opcode map -/

/-- The opcodes of the map (R62). -/
def listedOpcodes : List Byte := opcodeMap.map OpcodeRow.op

/-- No opcode has two rows: each row is the one its own opcode finds. -/
theorem opcodeRow_of_mem {r : OpcodeRow} (h : r ∈ opcodeMap) : opcodeRow r.op = some r := by
  unfold opcodeMap at h
  fin_cases h <;> rfl

theorem opcodeRow_eq_none {op : Byte} (h : op ∉ listedOpcodes) : opcodeRow op = none := by
  rw [opcodeRow, List.find?_eq_none]
  intro r hr hop
  obtain rfl : r.op = op := by simpa using hop
  exact h (List.mem_map_of_mem hr)

/-- The command a row names has the row's opcode, whatever its operand. -/
theorem command_op_of_mem {r : OpcodeRow} (h : r ∈ opcodeMap) (arg : Byte) : (r.command arg).op = r.op := by
  unfold opcodeMap at h
  fin_cases h <;> rfl

/-- R66: the ranges of reserved opcodes hold none of the map's. -/
theorem listedOpcodes_outside_reserved_ranges : ∀ op ∈ listedOpcodes,
    ¬(op.toNat ≤ 0x0F ∨ (0x15 ≤ op.toNat ∧ op.toNat ≤ 0x1F) ∨ (0x23 ≤ op.toNat ∧ op.toNat ≤ 0x2F) ∨
      0x35 ≤ op.toNat) := by
  decide

/-! ### The decoder on a word put together from its fields -/

/-- R69, an opcode outside the map. -/
theorem decode_of_unlisted {op : Byte} (h : opcodeRow op = none) (arg : Byte) :
    decode (op ++ arg) = .error .reservedOpcode := by
  simp [decode, h]

/-- R69, an `ARG` the opcode's form refuses. -/
theorem decode_of_refused {op arg : Byte} {r : OpcodeRow} {why : WordRefusal} (h : opcodeRow op = some r)
    (harg : argRefusal r.form arg = some why) : decode (op ++ arg) = .error why := by
  simp [decode, h, harg]

/-- R69, an `ARG` the opcode's form admits. -/
theorem decode_of_admitted {op arg : Byte} {r : OpcodeRow} (h : opcodeRow op = some r)
    (harg : argRefusal r.form arg = none) : decode (op ++ arg) = .ok (r.command arg) := by
  simp [decode, h, harg]

/-- The three cases of R69, read off a word that decodes. -/
theorem decode_append_eq_ok_iff {op arg : Byte} {i : Instr} :
    decode (op ++ arg) = .ok i ↔
      ∃ r, opcodeRow op = some r ∧ argRefusal r.form arg = none ∧ r.command arg = i := by
  cases h : opcodeRow op with
  | none => simp [decode_of_unlisted h]
  | some r =>
    cases harg : argRefusal r.form arg with
    | none => simp [decode_of_admitted h harg, harg]
    | some why => simp [decode_of_refused h harg, harg]

/-- Form NONE: the command at `ARG = 0x00` only. -/
theorem decode_noneForm {op : Byte} {i : Instr} (h : opcodeRow op = some ⟨op, .none, fun _ => i⟩) (arg : Byte) :
    decode (op ++ arg) = if arg = 0x00#8 then .ok i else .error .nonzeroArg := by
  split
  · next harg => exact decode_of_admitted h (if_pos harg)
  · next harg => exact decode_of_refused h (if_neg harg)

/-- Form BIT: the command where `ARG[7:1]` is zero only. -/
theorem decode_bitForm {op : Byte} {command : Byte → Instr} (h : opcodeRow op = some ⟨op, .bit, command⟩)
    (arg : Byte) :
    decode (op ++ arg) = if arg.extractLsb' 1 7 = 0#7 then .ok (command arg) else .error .bitArgRange := by
  split
  · next harg => exact decode_of_admitted h (if_pos harg)
  · next harg => exact decode_of_refused h (if_neg harg)

/-- Form BYTE: every `ARG`. -/
theorem decode_byteForm {op : Byte} {command : Byte → Instr} (h : opcodeRow op = some ⟨op, .byte, command⟩)
    (arg : Byte) : decode (op ++ arg) = .ok (command arg) :=
  decode_of_admitted h rfl

/-- Form COUNT: every `ARG`. -/
theorem decode_countForm {op : Byte} {command : Byte → Instr} (h : opcodeRow op = some ⟨op, .count, command⟩)
    (arg : Byte) : decode (op ++ arg) = .ok (command arg) :=
  decode_of_admitted h rfl

/-! ### How many words an opcode admits -/

/-- A form admits the values of `ARG` below this bound (R61). -/
def argBound : ArgForm → Nat
  | .none => 1
  | .bit => 2
  | .byte => 256
  | .count => 256

theorem argRefusal_eq_none_iff (form : ArgForm) (arg : Byte) :
    argRefusal form arg = none ↔ arg.toNat < argBound form := by
  cases form with
  | none => simp [argRefusal, argBound, BitVec.toNat_eq]
  | bit =>
    have hbits : arg.extractLsb' 1 7 = 0#7 ↔ arg.toNat < 2 := by
      have hlt := arg.isLt
      rw [BitVec.toNat_eq, BitVec.extractLsb'_toNat, BitVec.toNat_ofNat, Nat.shiftRight_eq_div_pow]
      omega
    simp [argRefusal, argBound, hbits]
  | byte => simpa [argRefusal, argBound] using arg.isLt
  | count => simpa [argRefusal, argBound] using arg.isLt

/-- `b` numbers of a range of at least `b` are below `b`. -/
theorem countP_range_lt {b n : Nat} (h : b ≤ n) : (List.range n).countP (· < b) = b := by
  obtain ⟨k, rfl⟩ := Nat.exists_eq_add_of_le h
  calc Nat.count (· < b) (b + k)
      = Nat.count (· < b) b + Nat.count (b + · < b) k := Nat.count_add _ b k
    _ = b := by rw [Nat.count_iff_forall.mpr (by simp), Nat.count_iff_forall_not.mpr (by simp), Nat.add_zero]

/-- An opcode of the map admits as many words as its form admits operands. -/
theorem admittedWords_of_mem {r : OpcodeRow} (h : r ∈ opcodeMap) :
    Safety.admittedWords r.op.toNat = argBound r.form := by
  have hbound : argBound r.form ≤ 256 := by cases r.form <;> decide
  rw [← countP_range_lt hbound]
  refine List.countP_congr fun n hn => ?_
  have hadm := argRefusal_eq_none_iff r.form (BitVec.ofNat 8 n)
  rw [BitVec.toNat_ofNat, Nat.mod_eq_of_lt (List.mem_range.mp hn)] at hadm
  rw [BitVec.ofNat_toNat, BitVec.setWidth_eq, decide_eq_true_iff, ← hadm]
  cases harg : argRefusal r.form (BitVec.ofNat 8 n) with
  | none => simp [decode_of_admitted (opcodeRow_of_mem h) harg, Except.toOption]
  | some why => simp [decode_of_refused (opcodeRow_of_mem h) harg, Except.toOption]

/-- An opcode outside the map admits no word. -/
theorem admittedWords_of_unlisted {op : Nat} (hlt : op < 256) (h : op ∉ listedOpcodes.map BitVec.toNat) :
    Safety.admittedWords op = 0 := by
  have hrow : opcodeRow (BitVec.ofNat 8 op) = none :=
    opcodeRow_eq_none fun hop => h (List.mem_map.mpr ⟨_, hop, by rw [BitVec.toNat_ofNat, Nat.mod_eq_of_lt hlt]⟩)
  simp [Safety.admittedWords, decode_of_unlisted hrow, Except.toOption]

/-- R66, the counts of the thirteen opcodes: the bounds of their forms. -/
theorem admittedWords_listedOpcodes :
    (listedOpcodes.map BitVec.toNat).map Safety.admittedWords = [1, 1, 1, 1, 1, 1, 256, 256, 1, 1, 2, 256, 1] :=
  calc (listedOpcodes.map BitVec.toNat).map Safety.admittedWords
      = opcodeMap.map fun r => argBound r.form := by
        rw [listedOpcodes, List.map_map, List.map_map]
        exact List.map_congr_left fun r hr => admittedWords_of_mem hr
    _ = [1, 1, 1, 1, 1, 1, 256, 256, 1, 1, 2, 256, 1] := rfl

/-- R66, the total: only the listed opcodes add to the sum over all 256. -/
theorem admittedTotal_eq : Safety.admittedTotal = 779 := by
  have hsub : ∀ op ∈ listedOpcodes.map BitVec.toNat, op < 256 := by decide
  have hzero : ∀ op ∈ (List.range 256).toFinset, op ∉ (listedOpcodes.map BitVec.toNat).toFinset →
      Safety.admittedWords op = 0 := fun op hop h =>
    admittedWords_of_unlisted (List.mem_range.mp (List.mem_toFinset.mp hop)) (mt List.mem_toFinset.mpr h)
  calc Safety.admittedTotal
      = ∑ op ∈ (List.range 256).toFinset, Safety.admittedWords op :=
        (List.sum_toFinset _ List.nodup_range).symm
    _ = ∑ op ∈ (listedOpcodes.map BitVec.toNat).toFinset, Safety.admittedWords op :=
        (Finset.sum_subset (fun op hop => by simpa using hsub op (List.mem_toFinset.mp hop)) hzero).symm
    _ = ((listedOpcodes.map BitVec.toNat).map Safety.admittedWords).sum := List.sum_toFinset _ (by decide)
    _ = 779 := by rw [admittedWords_listedOpcodes]; rfl

/-! ### Match and mask -/

/-- The operand bits of a form's mask (R63). -/
def argMask : ArgForm → Byte
  | .none => 0xFF#8
  | .bit => 0xFE#8
  | .byte => 0x00#8
  | .count => 0x00#8

/-- Every form's mask fixes the whole opcode (R63). -/
theorem formMask_eq_fields (form : ArgForm) : formMask form = BitVec.allOnes 8 ++ argMask form := by
  cases form <;> rfl

/-- The operand bits a form fixes are zero exactly where the form admits the operand (R61, R63). -/
theorem and_argMask_eq_zero_iff (form : ArgForm) (arg : Byte) :
    arg &&& argMask form = 0x00#8 ↔ argRefusal form arg = none := by
  cases form with
  | none => revert arg; decide
  | bit => revert arg; decide
  | byte => simp [argMask, argRefusal]
  | count => simp [argMask, argRefusal]

/-- Two words are equal exactly where both fields are (R60). -/
theorem append_eq_append_iff {op op' arg arg' : Byte} :
    (op ++ arg : Word) = op' ++ arg' ↔ op = op' ∧ arg = arg' := by
  constructor
  · intro h
    exact ⟨by simpa using congrArg opField h, by simpa using congrArg argField h⟩
  · rintro ⟨rfl, rfl⟩
    rfl

/-- A word has an opcode's match under a form's mask exactly where it has the opcode and an operand of the form. -/
theorem and_formMask_eq_iff (op arg op' : Byte) (form : ArgForm) :
    (op ++ arg : Word) &&& formMask form = op' ++ 0x00#8 ↔ op = op' ∧ argRefusal form arg = none := by
  rw [formMask_eq_fields, ← and_argMask_eq_zero_iff, BitVec.and_append, append_eq_append_iff, BitVec.and_allOnes]

/-- A word decodes to a command of an opcode exactly where it has the opcode and an operand of its form. -/
theorem decodes_to_op_iff (op arg : Byte) (j : Instr) :
    (∃ i, decode (op ++ arg) = .ok i ∧ i.op = j.op) ↔ op = j.op ∧ argRefusal j.form arg = none := by
  obtain ⟨r, hrow, -, hform, -⟩ := opcodeRow_op j
  constructor
  · rintro ⟨i, hdec, hi⟩
    obtain ⟨q, hq, harg, rfl⟩ := decode_append_eq_ok_iff.mp hdec
    obtain ⟨hmem, rfl⟩ := opcodeRow_mem hq
    rw [command_op_of_mem hmem] at hi
    obtain rfl : r = q := by simpa [hi, hrow] using hq
    exact ⟨hi, hform ▸ harg⟩
  · rintro ⟨rfl, harg⟩
    obtain ⟨hmem, hop⟩ := opcodeRow_mem hrow
    exact ⟨_, decode_of_admitted hrow (hform ▸ harg), (command_op_of_mem hmem arg).trans hop⟩

/-! ### The obligations -/

/-- Settles O1: the decoder computes the four words. -/
theorem workedExampleWordsDecode : Obligations.WorkedExampleWordsDecode :=
  ⟨rfl, rfl, rfl, rfl, rfl, rfl, rfl, rfl⟩

/-- Settles O2: each opcode by the form of its row, and every other opcode has none. -/
theorem decoderOfEveryOpcode : Obligations.DecoderOfEveryOpcode := by
  intro arg
  exact ⟨decode_noneForm rfl arg, decode_noneForm rfl arg, decode_noneForm rfl arg, decode_noneForm rfl arg,
    decode_noneForm rfl arg, decode_noneForm rfl arg,
    decode_countForm (command := fun arg => .waitMs (argCount arg)) rfl arg,
    decode_countForm (command := fun arg => .waitS (argCount arg)) rfl arg,
    decode_noneForm rfl arg, decode_noneForm rfl arg,
    decode_bitForm (command := fun arg => .writeBit (argBit arg)) rfl arg,
    decode_byteForm (command := fun arg => .writeByte (argByte arg)) rfl arg,
    decode_noneForm rfl arg, fun op hop => decode_of_unlisted (opcodeRow_eq_none hop) arg⟩

/-- Settles O3: no reserved range holds a listed opcode, the form refuses the operand, and the forms' counts add up. -/
theorem reservedEncodingsRefused : Obligations.ReservedEncodingsRefused := by
  refine ⟨fun w hw => ?_, fun i arg hform harg => ?_, fun arg harg => ?_, admittedWords_listedOpcodes,
    admittedTotal_eq, by rw [admittedTotal_eq]⟩
  · have hrow : opcodeRow (opField w) = none :=
      opcodeRow_eq_none fun hop => listedOpcodes_outside_reserved_ranges _ hop hw
    rw [word_eq_fields w]
    exact ⟨_, decode_of_unlisted hrow _⟩
  · obtain ⟨r, hrow, -, hr, -⟩ := opcodeRow_op i
    exact ⟨_, decode_of_refused hrow (by rw [hr, hform]; exact if_neg harg)⟩
  · exact ⟨_, decode_of_refused rfl (if_neg harg)⟩

/-- Settles O4: a word's match under a mask and its decoding to an opcode say the same of its two fields. -/
theorem matchAndMaskOfEachForm : Obligations.MatchAndMaskOfEachForm := by
  refine ⟨rfl, rfl, rfl, rfl, fun j w => ?_⟩
  rw [word_eq_fields w, decodes_to_op_iff, and_formMask_eq_iff]

end Sys2Proof
end

section
/-! The Bus Line Driver (R80 to R84, R87): `settled` after a line action as the rules spell it, the condition an `SDA`
edge makes under a released clock, and a line action that finds its line already where it puts it. -/

namespace Sys2Proof.Machine

/-! ### Line actions -/

/-- The two spellings of R28's clause: false after a transition, else as it was. -/
theorem settled_and_not_transition (b : Bool) (x d : Drive) :
    (b && !(x != d)) = if x = d then b else false := by
  by_cases h : x = d
  · simp [h]
  · simp [h]

/-! ### Conditions on the wire -/

/-- R111: a condition is the last item the harness has seen. -/
theorem condition_items_getLast? (isStart : Bool) (w : WireWalk) :
    (w.condition isStart).items.getLast? = some (if isStart then .startCondition else .stopCondition) :=
  List.getLast?_concat

/-- R111: `SDA` going low while both lines are released is a START condition. -/
theorem sdaAction_low_of_released {w : WireWalk} (h : w.lines = ⟨.released, .released⟩) :
    w.sdaAction .low = w.condition true := by
  simp [WireWalk.sdaAction, h]

/-- R111: `SDA` rising from low while the clock is released is a STOP condition. -/
theorem sdaAction_released_of_low {w : WireWalk} (h : w.lines = ⟨.released, .low⟩) :
    w.sdaAction .released = w.condition false := by
  simp [WireWalk.sdaAction, h]

/-- R111: what an `SDA` action adds to the items is what `sdaAction` adds; beside it only the drive states move on. -/
theorem next_sda_items (d : Drive) (w : WireWalk) : (w.next (.act .sda d)).items = (w.sdaAction d).items := rfl

/-! ### Line actions that are no transition -/

/-- R27, R28: an action that writes the state its line has is logged and is no transition, so `settled` stays. -/
theorem drive_of_drv_eq {l : Line} {d : Drive} {s : State} (h : drv l s = d) : drive l d s = emit (.act l d) s := by
  subst h
  cases l with
  | scl => simp [drive_scl, drv, emit]
  | sda => simp [drive_sda, drv, emit]

/-- R152: no `SDA` transition, no `V2`, whatever the clock. -/
theorem monitorV2_of_drv_eq {d : Drive} {s : State} (h : drv .sda s = d) : monitorV2 d s = s := by
  simp [monitorV2_eq, ← h, drv]

/-- R154: no transition, no `V4`, settled or not. -/
theorem monitorV4_of_drv_eq {l : Line} {d : Drive} {s : State} (h : drv l s = d) : monitorV4 l d s = s := by
  simp [monitorV4_eq, h]

/-- R87, the part the four drive commands share. -/
theorem complete_drive_of_drv_eq {l : Line} {d : Drive} {s : State} (h : drv l s = d) :
    complete (drive l d (monitorV4 l d s)) = { s with log := s.log ++ [.act l d], pc := s.pc + 1 } := by
  rw [monitorV4_of_drv_eq h, drive_of_drv_eq h]
  rfl

/-! ### The obligations -/

/-- Settles O14: the command's next state, with `settled` as R80 spells it. -/
theorem driveLowSclResult : Obligations.DriveLowSclResult :=
  ⟨rfl, fun _ => rfl, fun s => by rw [exec_driveLowScl, settled_and_not_transition]⟩

/-- Settles O15: the command's next state, with `settled` as R81 spells it. -/
theorem releaseSclResult : Obligations.ReleaseSclResult :=
  ⟨rfl, fun _ => rfl, fun s => by rw [exec_releaseScl, settled_and_not_transition]⟩

/-- Settles O16: the falling edge is a START condition, and the command's next state. -/
theorem driveLowSdaResult : Obligations.DriveLowSdaResult := by
  refine ⟨rfl, fun w hw => ?_, fun s => ?_⟩
  · rw [next_sda_items, sdaAction_low_of_released hw]
    exact condition_items_getLast? true w
  · rw [exec_driveLowSda, settled_and_not_transition]

/-- Settles O17: the rising edge is a STOP condition, and the command's next state. -/
theorem releaseSdaResult : Obligations.ReleaseSdaResult := by
  refine ⟨rfl, fun w hw => ?_, fun s => ?_⟩
  · rw [next_sda_items, sdaAction_released_of_low hw]
    exact condition_items_getLast? false w
  · rw [exec_releaseSda, settled_and_not_transition]

/-- Settles O18: the bit is `sampleBit`, fixed by the drive state of `SDA` where that is known. -/
theorem senseSdaResult : Obligations.SenseSdaResult :=
  ⟨rfl, fun s => ⟨sampleBit s, _, exec_senseSda s, fun h => (sample_low h).1, fun h => (sample_released h).1, rfl⟩⟩

/-- Settles O21: one case for each of the four drive commands. -/
theorem lineDriveIsIdempotent : Obligations.LineDriveIsIdempotent := by
  intro i l d s hmem hdrv
  simp only [List.mem_cons, Prod.mk.injEq, List.not_mem_nil, or_false] at hmem
  obtain ⟨rfl, rfl, rfl⟩ | ⟨rfl, rfl, rfl⟩ | ⟨rfl, rfl, rfl⟩ | ⟨rfl, rfl, rfl⟩ := hmem
  · rw [exec, execDriveLowScl, complete_drive_of_drv_eq hdrv]
  · rw [exec, execReleaseScl, complete_drive_of_drv_eq hdrv]
  · rw [exec, execDriveLowSda, monitorV2_of_drv_eq hdrv, complete_drive_of_drv_eq hdrv]
  · rw [exec, execReleaseSda, monitorV2_of_drv_eq hdrv, complete_drive_of_drv_eq hdrv]

end Sys2Proof.Machine
end

section
/-! The Timing Primitive (R90 to R95): the word of a wait from its count, the time a row of quanta stands for, and the
one shape all three commands' next states have. -/

namespace Sys2Proof.Machine

/-! ### Words and times -/

/-- R60, R91: the operand byte of the word is the count. -/
theorem encode_waitMs_toNat (n : Byte) : encode (.waitMs n.toNat) = 0x21#8 ++ n := by
  simp [encode, Instr.op, Instr.arg]

/-- R60, R92: the operand byte of the word is the count. -/
theorem encode_waitS_toNat (n : Byte) : encode (.waitS n.toNat) = 0x22#8 ++ n := by
  simp [encode, Instr.op, Instr.arg]

/-- R90: `k` quanta in a row last at least `k * T_Q`. -/
theorem minDuration_replicate_q (k : Nat) :
    minDuration (List.replicate k .q) = k * (Config.busQuantum : Nat) := by
  simp [minDuration, eventTime]

/-! ### The next state -/

/-- R90 to R93: every timing command logs one event, settles the bus and advances `pc`; nothing else changes. -/
theorem exec_of_timing {i : Instr} (h : i.subBlock = .timing) (s : State) :
    ∃ e, exec i s = .next { s with log := s.log ++ [e], settled := true, pc := s.pc + 1 } := by
  cases i with
  | waitQ => exact ⟨.q, exec_waitQ s⟩
  | waitMs n => exact ⟨.ms n, exec_waitMs n s⟩
  | waitS n => exact ⟨.sec n, exec_waitS n s⟩
  | _ => cases h

/-! ### The obligations -/

/-- Settles O22: the command's next state, and R90's bound for two quanta. -/
theorem waitQuantumResult : Obligations.WaitQuantumResult :=
  ⟨rfl, minDuration_replicate_q 2, exec_waitQ⟩

/-- Settles O23: the word of every count, no time for a count of 0, and the command's next state. -/
theorem waitMillisecondsResult : Obligations.WaitMillisecondsResult :=
  ⟨encode_waitMs_toNat, encode_waitMs_toNat 20#8, Nat.zero_mul _, fun n s _ => exec_waitMs n s⟩

/-- Settles O24: the word of every count, no time for a count of 0, and the command's next state. -/
theorem waitSecondsResult : Obligations.WaitSecondsResult :=
  ⟨encode_waitS_toNat, encode_waitS_toNat 3#8, Nat.zero_mul _, fun n s _ => exec_waitS n s⟩

/-- Settles O25: the timing commands share one next state, whatever event they log. -/
theorem timingCommandsSettleTheBus : Obligations.TimingCommandsSettleTheBus := by
  intro i s h
  obtain ⟨e, hexec⟩ := exec_of_timing h s
  exact ⟨_, hexec, rfl, rfl, rfl, rfl, rfl, rfl, rfl, rfl⟩

end Sys2Proof.Machine
end

section
/-! The I2C Transaction Engine (R100 to R108): what each of its line actions does to the harness's walk, the drive
states its events leave, and the event lists that touch `SDA` only under a low clock. -/

namespace Sys2Proof.Machine

/-! ### Line actions in the walk (R111) -/

@[simp] theorem next_q (w : WireWalk) : w.next .q = w := rfl

/-- R111: under a low clock an `SDA` action is data, no condition. -/
theorem next_sda_of_scl_low {w : WireWalk} (h : w.lines.scl = .low) (d : Drive) :
    w.next (.act .sda d) = { w with lines := ⟨.low, d⟩ } := by
  simp [WireWalk.next, WireWalk.sdaAction, Lines.after, h]

/-- R111: `SDA` going low while both lines are released: the START condition. -/
theorem next_driveLowSda_of_released {w : WireWalk} (h : w.lines = ⟨.released, .released⟩) :
    w.next (.act .sda .low) = { w.condition true with lines := ⟨.released, .low⟩ } := by
  simp [WireWalk.next, sdaAction_low_of_released h, Lines.after, h]

/-- R111: a rising clock edge begins a clock-high period. -/
theorem next_releaseScl_of_low {w : WireWalk} (h : w.lines.scl = .low) :
    w.next (.act .scl .released) =
      { w with lines := ⟨.released, w.lines.sda⟩, period := some ⟨false, []⟩ } := by
  simp [WireWalk.next, WireWalk.sclAction, Lines.after, h]

/-- R111: letting go of the clock is seen as no item. -/
theorem next_releaseScl_items (w : WireWalk) : (w.next (.act .scl .released)).items = w.items := by
  by_cases h : w.lines.scl = .low
  · rw [next_releaseScl_of_low h]
  · simp [WireWalk.next, WireWalk.sclAction, h]

/-- R111: a clock-high period that held a condition ends as no bit slot. -/
theorem next_driveLowScl_of_condition {w : WireWalk} {bs : List Bit} (h : w.period = some ⟨true, bs⟩) :
    w.next (.act .scl .low) = { w with lines := ⟨.low, w.lines.sda⟩, period := none } := by
  simp [WireWalk.next, WireWalk.sclAction, WireWalk.endPeriod, Lines.after, h]

/-- R101: START from a low clock with no bit slot pending. The walk sees the START condition, and a clock-high period
that counts as no bit slot. -/
theorem walk_start {w : WireWalk} (hscl : w.lines.scl = .low) (hgroup : w.group = []) :
    [Event.act .sda .released, .act .scl .released, .q, .act .sda .low, .q, .act .scl .low, .q].foldl
        WireWalk.next w =
      { w with
        lines := ⟨.low, .low⟩, period := none, inFrame := true
        items := w.items ++ [.startCondition] } := by
  simp only [List.foldl_cons, List.foldl_nil, next_q]
  rw [next_sda_of_scl_low hscl, next_releaseScl_of_low rfl, next_driveLowSda_of_released rfl,
    next_driveLowScl_of_condition rfl]
  simp [WireWalk.condition, hgroup]

/-! ### Drive states and values -/

/-- R100, R101: in either order both lines end released. -/
theorem linesAfter_releaseEvents (x : Lines) (o : Config.ReleaseOrder) :
    linesAfter x (releaseEvents o) = ⟨.released, .released⟩ := by
  cases o <;> rfl

/-- The two spellings of R28's clause for the two releases of R100. -/
theorem settled_and_not_transitions (b : Bool) (x y d : Drive) :
    (b && !(x != d) && !(y != d)) = if x = d ∧ y = d then b else false := by
  rw [Bool.and_right_comm, settled_and_not_transition, settled_and_not_transition, ite_and]

/-- R106: `RES` is 1 exactly where the bit sampled is 0. -/
theorem resultOf_acknowledged (x : Bit) : resultOf (acknowledged x) = if x = false then .one else .zero := by
  cases x <;> rfl

/-! ### Acting on `SDA` under a low clock only -/

theorem sdaChangesOnlyWhileSclLow_append (x : Lines) (es fs : List Event) :
    sdaChangesOnlyWhileSclLow x (es ++ fs) =
      (sdaChangesOnlyWhileSclLow x es && sdaChangesOnlyWhileSclLow (linesAfter x es) fs) := by
  induction es generalizing x with
  | nil => rfl
  | cons e es ih => simp [sdaChangesOnlyWhileSclLow, ih, Bool.and_assoc]

/-- Begun under a low clock, the events act on `SDA` under a low clock only and leave the clock low (R104). -/
def DataUnderLowClock (es : List Event) : Prop :=
  ∀ x : Lines, x.scl = .low → sdaChangesOnlyWhileSclLow x es = true ∧ (linesAfter x es).scl = .low

theorem dataUnderLowClock_nil : DataUnderLowClock [] := fun _ h => ⟨rfl, h⟩

theorem DataUnderLowClock.append {es fs : List Event} (hes : DataUnderLowClock es) (hfs : DataUnderLowClock fs) :
    DataUnderLowClock (es ++ fs) := by
  intro x hx
  obtain ⟨hacts, hlow⟩ := hes x hx
  rw [sdaChangesOnlyWhileSclLow_append, linesAfter_append, hacts, Bool.true_and]
  exact hfs _ hlow

theorem dataUnderLowClock_slotEvents (b : Bit) : DataUnderLowClock (slotEvents b) := by
  rintro ⟨scl, sda⟩ rfl
  exact ⟨rfl, rfl⟩

theorem dataUnderLowClock_ackEvents (x : Bit) : DataUnderLowClock (ackEvents x) := by
  rintro ⟨scl, sda⟩ rfl
  exact ⟨rfl, rfl⟩

theorem dataUnderLowClock_slots (bs : List Bit) : DataUnderLowClock (bs.flatMap slotEvents) := by
  induction bs with
  | nil => exact dataUnderLowClock_nil
  | cons b bs ih => exact (dataUnderLowClock_slotEvents b).append ih

/-- R104, one command: a bit or byte write logs such events and leaves the clock low. -/
theorem exec_dataWrite {i : Instr} (h : (∃ b, i = .writeBit b) ∨ ∃ v, i = .writeByte v) (s : State) :
    ∃ t es, exec i s = .next t ∧ t.log = s.log ++ es ∧ t.drvScl = .low ∧ DataUnderLowClock es := by
  obtain ⟨b, rfl⟩ | ⟨v, rfl⟩ := h
  · exact ⟨_, _, exec_writeBit b s, rfl, rfl, dataUnderLowClock_slotEvents b⟩
  · exact ⟨_, _, exec_writeByte v s, rfl, rfl,
      (dataUnderLowClock_slots (wireBits v)).append (dataUnderLowClock_ackEvents (envBit s))⟩

/-- R104, any sequence of them. -/
theorem execAll_dataWrites {is : List Instr} (h : ∀ i ∈ is, (∃ b, i = .writeBit b) ∨ ∃ v, i = .writeByte v)
    {s : State} (hscl : s.drvScl = .low) :
    ∃ t es, execAll is s = some t ∧ t.log = s.log ++ es ∧ t.drvScl = .low ∧ DataUnderLowClock es := by
  induction is generalizing s with
  | nil => exact ⟨s, [], rfl, (List.append_nil _).symm, hscl, dataUnderLowClock_nil⟩
  | cons i is ih =>
    obtain ⟨hi, his⟩ := List.forall_mem_cons.mp h
    obtain ⟨t, es, hexec, hlog, hlow, hes⟩ := exec_dataWrite hi s
    obtain ⟨u, fs, hrun, hlog', hlow', hfs⟩ := ih his hlow
    refine ⟨u, es ++ fs, (execAll_cons hexec is).trans hrun, ?_, hlow', hes.append hfs⟩
    rw [hlog', hlog, List.append_assoc]

/-- R104, the case it leaves out: a bit slot begun under a released clock acts on `SDA` there at once. -/
theorem slotEvents_of_scl_released {x : Lines} (h : x.scl = .released) (b : Bit) :
    sdaChangesOnlyWhileSclLow x (slotEvents b) = false := by
  simp [slotEvents, sdaChangesOnlyWhileSclLow, h]

/-! ### The obligations -/

/-- Settles O29: the releases, in either order, leave both lines released, and the next line action is the edge. -/
theorem startConditionIsFallingEdge : Obligations.StartConditionIsFallingEdge := by
  intro s
  have hlines : linesAfter (linesOf s) (releaseEvents s.releaseOrder ++ [.q]) = ⟨.released, .released⟩ := by
    rw [linesAfter_append, linesAfter_releaseEvents]
    rfl
  refine ⟨_, releaseEvents s.releaseOrder ++ [.q], [.q, .act .scl .low, .q], exec_start s, ?_, hlines, ?_⟩
  · rw [gained_of_log_eq_append rfl]
    simp
  · rw [hlines]
    rfl

/-- Settles O31: the command's next state, with the eight slots written out and `RES` as R106 spells it. -/
theorem writeByteResult : Obligations.WriteByteResult := by
  refine ⟨fun _ => rfl, fun v s => ⟨envBit s, _, exec_writeByte v s, rfl, ?_⟩⟩
  simp [resultOf_acknowledged, wireBits, byteBit, ackEvents]

/-- Settles O34: the clock rises over a low `SDA`, and a quantum later `SDA` does. -/
theorem stopConditionIsRisingEdge : Obligations.StopConditionIsRisingEdge :=
  fun s => ⟨_, [.act .sda .low, .q], exec_stop s, gained_of_log_eq_append rfl, rfl, rfl⟩

/-- Settles O35: by induction on the commands; from a released clock the first slot's data bit breaks it. -/
theorem dataChangesOnlyUnderLowClock : Obligations.DataChangesOnlyUnderLowClock := by
  refine ⟨fun is s hscl h => ?_, fun b s hscl => ⟨_, exec_writeBit b s, ?_⟩⟩
  · obtain ⟨t, es, hrun, hlog, hlow, hes⟩ := execAll_dataWrites h hscl
    rw [← gained_of_log_eq_append hlog] at hes
    exact ⟨t, hrun, hlow, (hes (linesOf s) hscl).1⟩
  · rw [gained_of_log_eq_append rfl]
    exact slotEvents_of_scl_released hscl b

/-- Settles O26: the STOP condition of the `SDA` release stays the last item, and the command's next state. -/
theorem idleResult : Obligations.IdleResult := by
  refine ⟨rfl, fun w hw => ?_, fun s h => ?_⟩
  · simp only [List.foldl_cons, List.foldl_nil]
    rw [next_releaseScl_items, next_sda_items, sdaAction_released_of_low hw]
    exact condition_items_getLast? false w
  · rw [exec_idle, settled_and_not_transitions, h]
    rfl

/-- Settles O27: the walk along START's events, and the command's next state. -/
theorem startResult : Obligations.StartResult := by
  refine ⟨rfl, fun w hscl _ hgroup => ?_, fun s h => ?_⟩
  · rw [walk_start hscl hgroup]
    exact ⟨rfl, hgroup, rfl⟩
  · rw [exec_start, h]
    rfl

/-- Settles O30: the command's next state, its bit slot written out. -/
theorem writeBitResult : Obligations.WriteBitResult :=
  ⟨rfl, rfl, exec_writeBit⟩

/-- Settles O33: the first action under a low clock and on an idle bus, and the command's next state. -/
theorem stopResult : Obligations.StopResult := by
  refine ⟨rfl, fun w hw => ?_, fun w hw => ?_, exec_stop⟩
  · have hscl : w.lines.scl = .low := by rw [hw]
    rw [next_sda_of_scl_low hscl]
  · rw [next_sda_items, sdaAction_low_of_released hw]
    exact condition_items_getLast? true w

end Sys2Proof.Machine
end

section
/-! The event spacing of the commands (R161, R162) and the caller-obligation flags (R150): a quantum right behind every
line action of a bit slot, the acknowledgment read, START and STOP, and the commands that set each flag. -/

namespace Sys2Proof.Machine

/-! ### A quantum between transitions (R161) -/

theorem quantumSpaced_q (x : Lines) (pending : Bool) (es : List Event) :
    quantumSpaced x pending (.q :: es) = quantumSpaced x false es := by
  cases pending <;> rfl

theorem quantumSpaced_smp (x : Lines) (pending : Bool) (b : Bit) (es : List Event) :
    quantumSpaced x pending (.smp b :: es) = quantumSpaced x pending es := by
  cases pending <;> rfl

/-- A line action with a quantum right behind it leaves no transition pending, whether or not it is one. -/
theorem quantumSpaced_act_q (x : Lines) (l : Line) (d : Drive) (es : List Event) :
    quantumSpaced x false (.act l d :: .q :: es) = quantumSpaced (x.after (.act l d)) false es := by
  rw [quantumSpaced, quantumSpaced_q, Bool.and_false, Bool.not_false, Bool.true_and]

theorem quantumSpaced_slotEvents (x : Lines) (b : Bit) (es : List Event) :
    quantumSpaced x false (slotEvents b ++ es) = quantumSpaced (linesAfter x (slotEvents b)) false es := by
  simp only [slotEvents, List.cons_append, List.nil_append, quantumSpaced_act_q]
  rfl

theorem quantumSpaced_ackEvents (x : Lines) (b : Bit) : quantumSpaced x false (ackEvents b) = true := by
  simp only [ackEvents, quantumSpaced_act_q, quantumSpaced_smp]
  rfl

/-- A row of bit slots before spaced events keeps them spaced. -/
theorem quantumSpaced_slots_append {es : List Event} (h : ∀ x, quantumSpaced x false es = true) (bs : List Bit)
    (x : Lines) : quantumSpaced x false (bs.flatMap slotEvents ++ es) = true := by
  induction bs generalizing x with
  | nil => exact h x
  | cons b bs ih => rw [List.flatMap_cons, List.append_assoc, quantumSpaced_slotEvents, ih]

/-- R161, one command: the events of STOP and of a bit or byte write are spaced whatever the lines, and end with a
quantum. -/
theorem exec_quantumSpaced {i : Instr} (h : i = .stop ∨ (∃ b, i = .writeBit b) ∨ ∃ v, i = .writeByte v) (s : State) :
    ∃ t es, exec i s = .next t ∧ t.log = s.log ++ es ∧ (∀ x, quantumSpaced x false es = true) ∧
      es.getLast? = some .q := by
  obtain rfl | ⟨b, rfl⟩ | ⟨v, rfl⟩ := h
  · refine ⟨_, _, exec_stop s, rfl, fun x => ?_, rfl⟩
    simp only [quantumSpaced_act_q]
    rfl
  · exact ⟨_, _, exec_writeBit b s, rfl, quantumSpaced_slots_append (fun _ => rfl) [b], rfl⟩
  · refine ⟨_, _, exec_writeByte v s, rfl,
      quantumSpaced_slots_append (fun x => quantumSpaced_ackEvents x _) (wireBits v), ?_⟩
    rw [List.getLast?_append]
    rfl

/-- R7: the two releases are two events, in either order. -/
theorem length_releaseEvents (o : Config.ReleaseOrder) : (releaseEvents o).length = 2 := by
  cases o <;> rfl

/-- R100: no delay stands between the two releases. -/
theorem q_notMem_releaseEvents (o : Config.ReleaseOrder) : Event.q ∉ releaseEvents o := by
  cases o <;> simp [releaseEvents]

/-! ### The obligations -/

/-- Settles O39: every line action but START's and IDLE's releases has a quantum right behind it. -/
theorem quantumBetweenTransitions : Obligations.QuantumBetweenTransitions := by
  refine ⟨fun i s h => ?_, fun s => ⟨_, exec_start s, ?_⟩, fun s => ⟨_, exec_idle s, ?_⟩⟩
  · obtain ⟨t, es, hexec, hlog, hspaced, hlast⟩ := exec_quantumSpaced h s
    rw [← gained_of_log_eq_append hlog] at hspaced hlast
    exact ⟨t, hexec, hspaced _, hlast⟩
  · have hlen := length_releaseEvents s.releaseOrder
    rw [gained_of_log_eq_append rfl, List.drop_left' hlen, List.take_left' hlen, List.getLast?_append]
    refine ⟨?_, linesAfter_releaseEvents _ _, rfl, rfl⟩
    simp only [quantumSpaced_q, quantumSpaced_act_q]
    rfl
  · rw [gained_of_log_eq_append rfl]
    exact q_notMem_releaseEvents _

/-- Settles O40: the acknowledgment read follows the eight slots; one quantum stands behind each of its releases. -/
theorem acknowledgmentSampleIsSpaced : Obligations.AcknowledgmentSampleIsSpaced := by
  intro v s
  refine ⟨_, (wireBits v).flatMap slotEvents, [.q], [.q], [.act .scl .low, .q], envBit s, exec_writeByte v s, ?_,
    by decide, by decide, by decide⟩
  rw [gained_of_log_eq_append rfl]
  rfl

/-- Settles O44: one case per command. The two `SDA` commands can set `V2` and `V4`, the two `SCL` commands `V4`, START
`V1`, the bit and byte writes `V3`; the others keep all four. -/
theorem flagsSetByTheirConditions : Obligations.FlagsSetByTheirConditions := by
  intro i s
  cases i with
  | driveLowScl => exact ⟨_, exec_driveLowScl s, by simp [and_comm]⟩
  | releaseScl => exact ⟨_, exec_releaseScl s, by simp [and_comm]⟩
  | driveLowSda => exact ⟨_, exec_driveLowSda s, by simp [and_comm]⟩
  | releaseSda => exact ⟨_, exec_releaseSda s, by simp [and_comm]⟩
  | senseSda => exact ⟨_, exec_senseSda s, by simp⟩
  | waitQ => exact ⟨_, exec_waitQ s, by simp⟩
  | waitMs n => exact ⟨_, exec_waitMs n s, by simp⟩
  | waitS n => exact ⟨_, exec_waitS n s, by simp⟩
  | idle => exact ⟨_, exec_idle s, by simp⟩
  | start => exact ⟨_, exec_start s, by simp⟩
  | writeBit b => exact ⟨_, exec_writeBit b s, by simp⟩
  | writeByte v => exact ⟨_, exec_writeByte v s, by simp⟩
  | stop => exact ⟨_, exec_stop s, by simp⟩

end Sys2Proof.Machine
end

section
/-! The round trips of the encoding (R60, R61, R69): a well-formed command's operand byte passes its form's check and is
read back, and an operand the form admits is the one operand of the command it makes. -/

namespace Sys2Proof

open Machine

/-! ### Operands -/

/-- R61, form COUNT: a count of the operand's range is read back from its byte. -/
theorem argCount_ofNat {n : Nat} (h : n ≤ waitArgMax) : argCount (BitVec.ofNat 8 n) = n := by
  rw [argCount, BitVec.toNat_ofNat, Nat.mod_eq_of_lt (Nat.lt_succ_of_le h)]

/-- R61, form BIT: a bit is read back from its byte. -/
theorem argBit_arg (b : Bit) : argBit (Instr.writeBit b).arg = b := by
  cases b <;> rfl

/-- R61: a command's operand byte is one its form admits. -/
theorem argRefusal_arg (i : Instr) : argRefusal i.form i.arg = none := by
  cases i with
  | writeBit b => cases b <;> rfl
  | _ => rfl

/-- R61: form NONE admits the byte 0 alone. -/
theorem zero_eq_of_noneForm {arg : Byte} (h : argRefusal .none arg = none) : 0x00#8 = arg := by
  have hlt : arg.toNat < 1 := (argRefusal_eq_none_iff .none arg).mp h
  bv_omega

/-- R61: an operand byte of form BIT is the one its bit makes. -/
theorem arg_writeBit_argBit {arg : Byte} (h : argRefusal .bit arg = none) :
    (Instr.writeBit (argBit arg)).arg = arg := by
  have hlt : arg.toNat < 2 := (argRefusal_eq_none_iff .bit arg).mp h
  obtain rfl | rfl : arg = 0#8 ∨ arg = 1#8 := by bv_omega
  · rfl
  · rfl

/-! ### Rows -/

/-- R62: a well-formed command's row has its form, and names it for its operand byte. -/
theorem opcodeRow_command_arg {i : Instr} (h : i.wellFormed = true) :
    ∃ r, opcodeRow i.op = some r ∧ r.form = i.form ∧ r.command i.arg = i := by
  cases i with
  | waitMs n => exact ⟨_, rfl, rfl, congrArg Instr.waitMs (argCount_ofNat (of_decide_eq_true h))⟩
  | waitS n => exact ⟨_, rfl, rfl, congrArg Instr.waitS (argCount_ofNat (of_decide_eq_true h))⟩
  | writeBit b => exact ⟨_, rfl, rfl, congrArg Instr.writeBit (argBit_arg b)⟩
  | _ => exact ⟨_, rfl, rfl, rfl⟩

/-- R61: the command a row names for an operand of its form has that operand. -/
theorem command_arg_of_mem {r : OpcodeRow} (h : r ∈ opcodeMap) {arg : Byte} (harg : argRefusal r.form arg = none) :
    (r.command arg).arg = arg := by
  have hcount : BitVec.ofNat 8 (argCount arg) = arg := BitVec.ofNat_toNat 8 arg
  unfold opcodeMap at h
  fin_cases h
  exacts [zero_eq_of_noneForm harg, zero_eq_of_noneForm harg, zero_eq_of_noneForm harg, zero_eq_of_noneForm harg,
    zero_eq_of_noneForm harg, zero_eq_of_noneForm harg, hcount, hcount, zero_eq_of_noneForm harg,
    zero_eq_of_noneForm harg, arg_writeBit_argBit harg, rfl, zero_eq_of_noneForm harg]

/-- R61: the command a row names for any operand is well formed. -/
theorem command_wellFormed_of_mem {r : OpcodeRow} (h : r ∈ opcodeMap) (arg : Byte) :
    (r.command arg).wellFormed = true := by
  have hcount : argCount arg ≤ waitArgMax := Nat.le_of_lt_succ arg.isLt
  unfold opcodeMap at h
  fin_cases h
  exacts [rfl, rfl, rfl, rfl, rfl, rfl, decide_eq_true hcount, decide_eq_true hcount, rfl, rfl, rfl, rfl, rfl]

/-! ### The obligations -/

/-- Settles O5: the command's row admits its operand byte and names the command for it. -/
theorem decodeOfEncode : Obligations.DecodeOfEncode := by
  intro i h
  obtain ⟨r, hrow, hform, hcommand⟩ := opcodeRow_command_arg h
  rw [encode, decode_of_admitted hrow (hform ▸ argRefusal_arg i), hcommand]

/-- Settles O6: the word is its two fields, and the row that names the command gives it both. -/
theorem encodeOfDecode : Obligations.EncodeOfDecode := by
  intro w i h
  rw [word_eq_fields w] at h ⊢
  obtain ⟨r, hrow, harg, rfl⟩ := decode_append_eq_ok_iff.mp h
  obtain ⟨hmem, hop⟩ := opcodeRow_mem hrow
  rw [encode, command_op_of_mem hmem, hop, command_arg_of_mem hmem harg]
  exact ⟨rfl, command_wellFormed_of_mem hmem _⟩

end Sys2Proof
end

section
/-! The assembler's round trip (R62, R64; log entry 15): words joined by blanks are split into the same words, a byte's
text is read back, and the words of a command spell it. -/

namespace Sys2Proof.Machine

/-! ### Words -/

/-- A word of a line: not empty, and without a blank or the comment sign. -/
def isWord (word : List Char) : Bool := !word.isEmpty && word.all fun c => c != ' ' && c != '\t' && c != ';'

theorem isWord_iff (word : List Char) :
    isWord word = true ↔ word ≠ [] ∧ ∀ c ∈ word, c ≠ ' ' ∧ c ≠ '\t' ∧ c ≠ ';' := by
  simp [isWord, and_assoc]

/-- Read from the right, a word extends the word begun. -/
theorem foldr_split_word {word : List Char} (h : isWord word = true) (words : List (List Char)) :
    word.foldr asmWords.split (words, []) = (words, word) := by
  obtain ⟨-, hchars⟩ := (isWord_iff word).mp h
  clear h
  induction word with
  | nil => rfl
  | cons c cs ih =>
    obtain ⟨⟨hspace, htab, -⟩, hcs⟩ := List.forall_mem_cons.mp hchars
    rw [List.foldr_cons, ih hcs]
    simp [asmWords.split, hspace, htab]

/-- Read from the right, a blank ends the word begun. -/
theorem split_blank {word : List Char} (h : word ≠ []) (words : List (List Char)) :
    asmWords.split ' ' (words, word) = (word :: words, []) := by
  simp [asmWords.split, h]

/-- Read from the right, words joined by blanks are found again, the first being still begun. -/
theorem foldr_split_intercalate {word : List Char} {words : List (List Char)}
    (h : ∀ w ∈ word :: words, isWord w = true) :
    ([' '].intercalate (word :: words)).foldr asmWords.split ([], []) = (words, word) := by
  induction words generalizing word with
  | nil =>
    rw [List.intercalate_singleton]
    exact foldr_split_word (h _ List.mem_cons_self) []
  | cons next words ih =>
    obtain ⟨hword, hrest⟩ := List.forall_mem_cons.mp h
    obtain ⟨hne, -⟩ := (isWord_iff next).mp (hrest _ List.mem_cons_self)
    rw [List.intercalate_cons_cons, List.append_assoc, List.foldr_append, List.foldr_append, ih hrest,
      List.foldr_cons, List.foldr_nil, split_blank hne, foldr_split_word hword]

/-- Words joined by blanks hold no comment sign. -/
theorem ne_semicolon_of_mem_intercalate {words : List (List Char)} (h : ∀ w ∈ words, isWord w = true) :
    ∀ c ∈ [' '].intercalate words, c ≠ ';' := by
  induction words with
  | nil => exact fun c hc => absurd hc List.not_mem_nil
  | cons word words ih =>
    obtain ⟨hword, hrest⟩ := List.forall_mem_cons.mp h
    have hchars : ∀ c ∈ word, c ≠ ';' := fun c hc => (((isWord_iff word).mp hword).2 c hc).2.2
    cases words with
    | nil => rwa [List.intercalate_singleton]
    | cons next words =>
      rw [List.intercalate_cons_cons, List.forall_mem_append, List.forall_mem_append]
      exact ⟨⟨hchars, by simp⟩, ih hrest⟩

theorem asmCode_intercalate {words : List (List Char)} (h : ∀ w ∈ words, isWord w = true) :
    asmCode ([' '].intercalate words) = [' '].intercalate words :=
  List.takeWhile_eq_self_iff.mpr fun c hc => bne_iff_ne.mpr (ne_semicolon_of_mem_intercalate h c hc)

/-- A line of words is split into them. -/
theorem asmWords_asmCode_intercalate {words : List (List Char)} (hne : words ≠ []) (h : ∀ w ∈ words, isWord w = true) :
    asmWords (asmCode ([' '].intercalate words)) = words := by
  obtain ⟨word, words, rfl⟩ := List.exists_cons_of_ne_nil hne
  have hword := (isWord_iff word).mp (h _ List.mem_cons_self)
  rw [asmCode_intercalate h, asmWords, foldr_split_intercalate h]
  simp [hword.1]

/-! ### Numbers -/

/-- A hexadecimal digit is read back. -/
theorem hexDigit_hexChar {n : Nat} (h : n < 16) : hexDigit (hexChar n) = some n := by
  interval_cases n <;> rfl

/-- A hexadecimal digit is no blank and no comment sign. -/
theorem isWord_hexChar {n : Nat} (h : n < 16) : isWord [hexChar n] = true := by
  interval_cases n <;> rfl

theorem isWord_append {u v : List Char} (hu : isWord u = true) (hv : isWord v = true) : isWord (u ++ v) = true := by
  obtain ⟨hne, hu⟩ := (isWord_iff u).mp hu
  obtain ⟨-, hv⟩ := (isWord_iff v).mp hv
  exact (isWord_iff _).mpr ⟨by simp [hne], List.forall_mem_append.mpr ⟨hu, hv⟩⟩

/-- The upper of a byte's two hexadecimal digits. -/
theorem toNat_div_lt (v : Byte) : v.toNat / 16 < 16 := Nat.div_lt_of_lt_mul v.isLt

theorem isWord_byteText (v : Byte) : isWord (byteText v) = true :=
  isWord_append (u := ['0', 'x']) rfl
    (isWord_append (isWord_hexChar (toNat_div_lt v)) (isWord_hexChar (Nat.mod_lt _ (by decide))))

/-- A byte's text is read back. -/
theorem asmNumber_byteText (v : Byte) : asmNumber (byteText v) = some v.toNat := by
  have hdigits : digitsValue 16 hexDigit [hexChar (v.toNat / 16), hexChar (v.toNat % 16)] = some v.toNat := by
    simp [digitsValue, hexDigit_hexChar (toNat_div_lt v), hexDigit_hexChar (Nat.mod_lt v.toNat (by decide : 0 < 16)),
      Nat.div_add_mod']
  have hle : v.toNat ≤ 255 := Nat.le_of_lt_succ v.isLt
  rw [byteText, asmNumber, hdigits]
  simp [hle]

/-! ### Commands -/

/-- The words the model writes for a command. -/
def lineWords (i : Instr) : List (List Char) := (asmSpelling i).map String.toList ++ asmOperand i

theorem isWord_of_mem_pair {name operand : List Char} (hname : isWord name = true) (hoperand : isWord operand = true) :
    ∀ w ∈ [name, operand], isWord w = true := by
  simp [hname, hoperand]

theorem isWord_of_mem_lineWords (i : Instr) : ∀ w ∈ lineWords i, isWord w = true := by
  cases i with
  | waitMs n => exact isWord_of_mem_pair rfl (isWord_byteText _)
  | waitS n => exact isWord_of_mem_pair rfl (isWord_byteText _)
  | writeByte v => exact isWord_of_mem_pair rfl (isWord_byteText v)
  | writeBit b => cases b <;> exact isWord_of_mem_pair rfl rfl
  | _ => decide

/-- R61: a count of the operand's range is read back from the text of its byte. -/
theorem asmNumber_byteText_ofNat {n : Nat} (h : n ≤ waitArgMax) :
    asmNumber (byteText (BitVec.ofNat 8 n)) = some n :=
  (asmNumber_byteText _).trans (congrArg some (argCount_ofNat h))

/-- The words of a well-formed command spell it. -/
theorem asmCommand_lineWords {i : Instr} (h : i.wellFormed = true) : asmCommand (lineWords i) = some i := by
  cases i with
  | waitMs n => exact congrArg (Option.map Instr.waitMs) (asmNumber_byteText_ofNat (of_decide_eq_true h))
  | waitS n => exact congrArg (Option.map Instr.waitS) (asmNumber_byteText_ofNat (of_decide_eq_true h))
  | writeByte v =>
    refine (congrArg (Option.map fun n => Instr.writeByte (BitVec.ofNat 8 n)) (asmNumber_byteText v)).trans ?_
    rw [Option.map_some, BitVec.ofNat_toNat, BitVec.setWidth_eq]
  | writeBit b => cases b <;> rfl
  | _ => rfl

/-- The line the model writes for a command is split into the command's words. -/
theorem asmWords_asmText (i : Instr) : asmWords (asmCode (asmText i).toList) = lineWords i := by
  rw [asmText, String.toList_ofList]
  exact asmWords_asmCode_intercalate (by cases i <;> simp [asmSpelling]) (isWord_of_mem_lineWords i)

/-! ### The obligation -/

/-- Settles O7: the line is split into the command's words, and they spell it. -/
theorem assemblerRoundTrip : Obligations.AssemblerRoundTrip := by
  intro i h
  have hne : (lineWords i).isEmpty = false := by cases i <;> rfl
  simp only [assembleLine, asmWords_asmText, hne, asmCommand_lineWords h]
  rfl

end Sys2Proof.Machine
end

section
/-! The next state of any command in one equation: the drive states, `settled` and the log are what its events make of
them, and a small function for each other field says which commands write it. What all commands have in common is read
off this equation, without its thirteen cases. -/

namespace Sys2Proof.Machine

/-! ### What a command reads and writes -/

/-- The level a command's sample reads (R84, R105); of no use to a command that takes none. -/
def sampledBit (s : State) : Instr → Bit
  | .senseSda => sampleBit s
  | .writeByte _ => envBit s
  | _ => false

/-- The events a command appends to a state's log. -/
def eventsOf (i : Instr) (s : State) : List Event := commandEvents s.releaseOrder (sampledBit s i) i

/-- The bit a command writes into `RES`, if it is one of the two that write it (R26). -/
def resultWritten (s : State) : Instr → Option Bit
  | .senseSda => some (sampleBit s)
  | .writeByte _ => some (acknowledged (envBit s))
  | _ => none

/-- `V1` after a command (R151). -/
def v1After (s : State) : Instr → Bool
  | .start => s.v1 || s.bitsPending != 0
  | _ => s.v1

/-- `V2` after a command (R152). -/
def v2After (s : State) : Instr → Bool
  | .driveLowSda => s.v2 || (trans .sda .low s && s.drvScl != .low)
  | .releaseSda => s.v2 || (trans .sda .released s && s.drvScl != .low)
  | _ => s.v2

/-- `V3` after a command (R153). -/
def v3After (s : State) : Instr → Bool
  | .writeBit _ => s.v3 || s.drvScl != .low
  | .writeByte _ => s.v3 || s.drvScl != .low
  | _ => s.v3

/-- `V4` after a command (R154). -/
def v4After (s : State) : Instr → Bool
  | .driveLowScl => s.v4 || (trans .scl .low s && !s.settled)
  | .releaseScl => s.v4 || (trans .scl .released s && !s.settled)
  | .driveLowSda => s.v4 || (trans .sda .low s && !s.settled)
  | .releaseSda => s.v4 || (trans .sda .released s && !s.settled)
  | _ => s.v4

/-- `bits_pending` after a command (R151). -/
def pendingAfter (s : State) : Instr → Nat
  | .idle => 0
  | .start => 0
  | .writeBit _ => s.bitsPending + 1
  | .writeByte _ => 0
  | .stop => 0
  | _ => s.bitsPending

/-- The environment's listed answers after a command (R24): a sample of a released `SDA` takes one. -/
def answersAfter (s : State) : Instr → List Bit
  | .senseSda => if s.drvSda = .released then s.envAnswers.tail else s.envAnswers
  | .writeByte _ => s.envAnswers.tail
  | _ => s.envAnswers

/-- The draw counter after a command (R84): a sample of a line the host does not hold low moves it on. -/
def drawsAfter (s : State) : Instr → Nat
  | .senseSda => if s.drvSda = .low then s.draws else s.draws + 1
  | .writeByte _ => s.draws + 1
  | _ => s.draws

/-- The state a command leaves. -/
def nextState (i : Instr) (s : State) : State where
  drvScl := (linesAfter (linesOf s) (eventsOf i s)).scl
  drvSda := (linesAfter (linesOf s) (eventsOf i s)).sda
  res := (resultWritten s i).elim s.res resultOf
  log := s.log ++ eventsOf i s
  v1 := v1After s i
  v2 := v2After s i
  v3 := v3After s i
  v4 := v4After s i
  bitsPending := pendingAfter s i
  settled := settledAfter (linesOf s) s.settled (eventsOf i s)
  refused := s.refused
  pc := s.pc + 1
  cmds := s.cmds
  releaseOrder := s.releaseOrder
  envAnswers := answersAfter s i
  draws := drawsAfter s i

/-- R28: the two releases of R100 leave `settled` alike in either order. -/
theorem settledAfter_releaseEvents (x : Lines) (b : Bool) (o : Config.ReleaseOrder) :
    settledAfter x b (releaseEvents o) = (b && !(x.sda != .released) && !(x.scl != .released)) := by
  cases o with
  | sdaFirst => rfl
  | sclFirst => exact Bool.and_right_comm ..

/-- R28: a sample leaves `settled` alone. -/
theorem settledAfter_smp (x : Lines) (settled : Bool) (b : Bit) : settledAfter x settled [.smp b] = settled :=
  Bool.and_true settled

/-- R84: which of the model's two environment fields a sample's draw touches. -/
theorem afterDraw_eq (s : State) :
    afterDraw s = { s with envAnswers := answersAfter s .senseSda, draws := drawsAfter s .senseSda } := by
  unfold afterDraw answersAfter drawsAfter
  split
  · next h => rw [if_neg (by simp [h]), if_pos h]
  · next h => rw [if_pos h, if_neg (by simp [h]), drawn]
  · next h => rw [if_neg (by simp [h]), if_neg (by simp [h]), drawnFree]

/-- Every command completes, in the state its events and the functions above make. -/
theorem exec_eq_nextState (i : Instr) (s : State) : exec i s = .next (nextState i s) := by
  cases i with
  | driveLowScl => exact exec_driveLowScl s
  | releaseScl => exact exec_releaseScl s
  | driveLowSda => exact exec_driveLowSda s
  | releaseSda => exact exec_releaseSda s
  | senseSda =>
    rw [exec_senseSda, afterDraw_eq, nextState, eventsOf, commandEvents, settledAfter_smp]
    rfl
  | waitQ => exact exec_waitQ s
  | waitMs n => exact exec_waitMs n s
  | waitS n => exact exec_waitS n s
  | idle =>
    rw [exec_idle, nextState, eventsOf, commandEvents, linesAfter_releaseEvents, settledAfter_releaseEvents]
    rfl
  | start =>
    rw [exec_start, nextState, eventsOf, commandEvents, linesAfter_append, settledAfter_append]
    rfl
  | writeBit b => exact exec_writeBit b s
  | writeByte v => exact exec_writeByte v s
  | stop => exact exec_stop s

@[simp] theorem gained_nextState (i : Instr) (s : State) : gained s (nextState i s) = eventsOf i s :=
  gained_of_log_eq_append rfl

@[simp] theorem linesOf_nextState (i : Instr) (s : State) :
    linesOf (nextState i s) = linesAfter (linesOf s) (eventsOf i s) := rfl

/-! ### Two states a command cannot tell apart -/

/-- R26, R112: no command reads `RES`, so what it leaves differs in `RES` at most. -/
theorem nextState_with_res (i : Instr) (s : State) (r : ResultValue) :
    { nextState i { s with res := r } with res := (nextState i s).res } = nextState i s := rfl

/-- States alike on the bus differ in `RES`, the bookkeeping and the host's fields at most. -/
theorem eq_of_sameBus {s s' : State} (h : Safety.SameBus s s') :
    s' = { s' with
      drvScl := s.drvScl, drvSda := s.drvSda, log := s.log, releaseOrder := s.releaseOrder
      envAnswers := s.envAnswers, draws := s.draws } := by
  obtain ⟨hscl, hsda, hlog, horder, hanswers, hdraws⟩ := h
  rw [hscl, hsda, hlog, horder, hanswers, hdraws]

/-- R28, R123: states alike on the bus are left alike on the bus. -/
theorem sameBus_nextState (i : Instr) {s s' : State} (h : Safety.SameBus s s') :
    Safety.SameBus (nextState i s) (nextState i s') := by
  rw [eq_of_sameBus h]
  exact ⟨rfl, rfl, rfl, rfl, rfl, rfl⟩

/-- R28, R123: on states alike on the bus a command writes the same `RES`. -/
theorem resultWritten_of_sameBus (i : Instr) {s s' : State} (h : Safety.SameBus s s') :
    resultWritten s i = resultWritten s' i := by
  rw [eq_of_sameBus h]
  rfl

/-! ### The obligations -/

/-- Settles O13: the fields of the next state that no command writes, and `pc`. -/
theorem everyCommandCompletes : Obligations.EveryCommandCompletes :=
  fun i s => ⟨_, exec_eq_nextState i s, rfl, rfl, rfl, rfl⟩

/-- Settles O36: the log of the next state, with the level the command's sample reads. -/
theorem eventsOfEveryCommand : Obligations.EventsOfEveryCommand :=
  fun i s _ => ⟨sampledBit s i, _, exec_eq_nextState i s, rfl⟩

/-- Settles O45: `pendingAfter`, clause by clause. -/
theorem bitsPendingCountsWriteBits : Obligations.BitsPendingCountsWriteBits := by
  intro i s
  refine ⟨_, exec_eq_nextState i s, ?_, ?_, fun h => ?_⟩
  · rintro ⟨b, rfl⟩
    rfl
  · rintro (rfl | rfl | ⟨v, rfl⟩ | rfl) <;> rfl
  · cases i with
    | idle | start | writeBit b | writeByte v | stop => simp [Instr.subBlock] at h
    | _ => rfl

/-- Settles O46: `settled` of the next state, over the events gained. -/
theorem settledFollowsTheEvents : Obligations.SettledFollowsTheEvents :=
  fun i s => ⟨_, exec_eq_nextState i s, by rw [gained_nextState]; rfl⟩

/-- Settles O42: WRITE_BYTE's next states for the two answers, and no command reads `RES`. -/
theorem missedAcknowledgmentChangesOnlyResult : Obligations.MissedAcknowledgmentChangesOnlyResult :=
  ⟨fun v _ _ => ⟨_, _, exec_writeByte v _, exec_writeByte v _, rfl, rfl, rfl⟩,
    fun i s r => ⟨_, _, exec_eq_nextState i s, exec_eq_nextState i _, nextState_with_res i s r⟩⟩

/-- Settles O43: the next states, and the values written into `RES`, of two states alike on the bus. -/
theorem bookkeepingDoesNotAffectTheBlock : Obligations.BookkeepingDoesNotAffectTheBlock := by
  intro i s s' h
  refine ⟨_, _, exec_eq_nextState i s, exec_eq_nextState i s', sameBus_nextState i h, fun hres => ?_⟩
  rw [nextState, nextState, resultWritten_of_sameBus i h, hres]

end Sys2Proof.Machine
end

section
/-! One step of the block (R5, R70, R145): what each answer of the command port comes to, what no step shrinks, and the
invariant that every step keeps. -/

namespace Sys2Proof.Machine

open Safety

/-! ### The answers of a step -/

/-- R70, R145: a run with `REFUSED` set has no step. -/
theorem step_of_refused {s : State} (h : s.refused = true) : step s = .refused (endReason s) := by
  rw [step, fetch, if_pos h]

/-- R70: it ends under the reason the decoder gives for the word at `pc`. -/
theorem endReason_of_decode_error {s : State} {w : Word} {why : WordRefusal} (hw : commandWord s = some w)
    (hdec : decode w = .error why) : endReason s = .reservedWord why := by
  simp [endReason, hw, hdec]

/-- R145: a run whose list is exhausted has no step. -/
theorem step_of_exhausted {s : State} (h : s.refused = false) (hw : commandWord s = none) :
    step s = .refused .noCommand := by
  simp [step, fetch, h, hw]

/-- R70: a word the decoder refuses is marked. -/
theorem step_of_decode_error {s : State} {w : Word} {why : WordRefusal} (h : s.refused = false)
    (hw : commandWord s = some w) (hdec : decode w = .error why) : step s = .next (markRefused s) := by
  simp [step, fetch, h, hw, hdec]

/-- R30: a word the decoder accepts is run. -/
theorem step_of_decode_ok {s : State} {w : Word} {i : Instr} (h : s.refused = false) (hw : commandWord s = some w)
    (hdec : decode w = .ok i) : step s = exec i s := by
  simp [step, fetch, h, hw, hdec]

/-- R30: the host has a word to issue exactly while `pc` stands in its list. -/
theorem commandWord_eq_none_iff (s : State) : commandWord s = none ↔ s.cmds.length ≤ s.pc :=
  List.getElem?_eq_none_iff

/-- R70, R145: a run that has ended has no step. -/
theorem exists_refusal {s : State} (h : s.refused = true ∨ s.cmds.length ≤ s.pc) : ∃ r, step s = .refused r := by
  cases hrefused : s.refused with
  | true => exact ⟨_, step_of_refused hrefused⟩
  | false =>
    have hpc : s.cmds.length ≤ s.pc := h.resolve_left (by simp [hrefused])
    exact ⟨_, step_of_exhausted hrefused ((commandWord_eq_none_iff s).mpr hpc)⟩

/-- R120, R145: a run that has not ended has a next state. -/
theorem exists_step {s : State} (h : s.refused = false) (hpc : s.pc < s.cmds.length) : ∃ t, step s = .next t := by
  have hw : commandWord s = some s.cmds[s.pc] := List.getElem?_eq_getElem hpc
  cases hdec : decode s.cmds[s.pc] with
  | error why => exact ⟨_, step_of_decode_error h hw hdec⟩
  | ok i => exact ⟨_, (step_of_decode_ok h hw hdec).trans (exec_eq_nextState i s)⟩

/-- What a step can do, with the state a command leaves: mark the word at `pc`, or run the command it names. -/
theorem step_next_cases {s t : State} (h : step s = .next t) :
    (t = markRefused s ∧ ∃ w why, commandWord s = some w ∧ decode w = .error why) ∨
    (s.refused = false ∧ ∃ w i, commandWord s = some w ∧ decode w = .ok i ∧ t = nextState i s) := by
  obtain ⟨-, rfl, hword⟩ | ⟨hrefused, w, i, hw, hdec, hexec⟩ := step_cases h
  · exact .inl ⟨rfl, hword⟩
  · rw [exec_eq_nextState] at hexec
    cases hexec
    exact .inr ⟨hrefused, w, i, hw, hdec, rfl⟩

@[simp] theorem gained_markRefused (s : State) : gained s (markRefused s) = [] := by
  simp [gained]

/-! ### The events of a command -/

theorem slotEvents_legal (b : Bit) : (slotEvents b).all legalEvent = true := by
  cases b <;> rfl

/-- R27: a well-formed command appends legal events. -/
theorem commandEvents_legal {i : Instr} (h : i.wellFormed = true) (o : Config.ReleaseOrder) (x : Bit) :
    (commandEvents o x i).all legalEvent = true := by
  cases i with
  | waitMs n => simpa [commandEvents, legalEvent, Instr.wellFormed] using h
  | waitS n => simpa [commandEvents, legalEvent, Instr.wellFormed] using h
  | idle | start => cases o <;> rfl
  | writeBit b => exact slotEvents_legal b
  | writeByte v => simp [commandEvents, slotEvents_legal, ackEvents, legalEvent]
  | _ => rfl

/-- R61, R69: a word that decodes names a well-formed command, so the events it appends are legal. -/
theorem eventsOf_legal {w : Word} {i : Instr} (hdec : decode w = .ok i) (s : State) :
    (eventsOf i s).all legalEvent = true :=
  commandEvents_legal (encodeOfDecode w i hdec).2 _ _

/-- R22: a legal event leaves a line that is not `Unknown` so. -/
theorem after_get_ne_unknown {e : Event} (he : legalEvent e = true) {x : Lines} {l : Line} (h : x.get l ≠ .unknown) :
    (x.after e).get l ≠ .unknown := by
  cases e with
  | act m d =>
    have hd : d ≠ .unknown := by simpa [legalEvent] using he
    cases m with
    | scl => cases l with
      | scl => exact hd
      | sda => exact h
    | sda => cases l with
      | scl => exact h
      | sda => exact hd
  | _ => exact h

/-- R22: legal events leave a line that is not `Unknown` so. -/
theorem linesAfter_get_ne_unknown {es : List Event} (hes : es.all legalEvent = true) {x : Lines} {l : Line}
    (h : x.get l ≠ .unknown) : (linesAfter x es).get l ≠ .unknown := by
  induction es generalizing x with
  | nil => exact h
  | cons e es ih =>
    obtain ⟨he, hes⟩ := Bool.and_eq_true_iff.mp hes
    exact ih hes (after_get_ne_unknown he h)

/-- R22: no legal event drives a line to `Unknown`. -/
theorem act_unknown_notMem {es : List Event} (hes : es.all legalEvent = true) (l : Line) :
    Event.act l .unknown ∉ es := fun hmem => by
  simpa [legalEvent] using List.all_eq_true.mp hes _ hmem

theorem linesOf_get (s : State) (l : Line) : (linesOf s).get l = drv l s := by
  cases l <;> rfl

/-! ### The invariant -/

/-- R21, R27, R28: appended legal events go on explaining the lines and `settled`. -/
theorem logExplainsLines_nextState {i : Instr} {s : State} (hlegal : (eventsOf i s).all legalEvent = true)
    (h : LogExplainsLines s) : LogExplainsLines (nextState i s) := by
  obtain ⟨hlines, hsettled, hlog⟩ := h
  refine ⟨?_, ?_, ?_⟩
  · rw [linesOf_nextState, nextState, linesAfter_append, hlines]
  · rw [nextState, settledAfter_append, ← hlines, ← hsettled]
  · rw [nextState, List.all_append, hlog, hlegal, Bool.and_self]

/-- R26: the commands that take a sample are those that write `RES`. -/
theorem any_isSample_eventsOf (i : Instr) (s : State) :
    (eventsOf i s).any isSample = (resultWritten s i).isSome := by
  cases i with
  | idle | start => unfold eventsOf; cases s.releaseOrder <;> rfl
  | _ => rfl

/-- R26: a command leaves `RES` as `Unknown` exactly where it was and the command takes no sample. -/
theorem nextState_res_eq_unknown_iff (i : Instr) (s : State) :
    (nextState i s).res = .unknown ↔ s.res = .unknown ∧ (eventsOf i s).any isSample = false := by
  rw [any_isSample_eventsOf, nextState]
  cases resultWritten s i with
  | none => simp
  | some b => cases b <;> simp [resultOf]

/-- R26: `RES` is `Unknown` exactly while nothing has been sampled, the events just appended included. -/
theorem resultNeedsSample_nextState {i : Instr} {s : State} (h : ResultNeedsSample s) :
    ResultNeedsSample (nextState i s) := by
  rw [ResultNeedsSample, nextState_res_eq_unknown_iff, show s.res = .unknown ↔ _ from h, nextState, List.any_append,
    Bool.or_eq_false_iff]

/-- R30: running a command moves `pc` on within the host's list, or to its end. -/
theorem runPosition_nextState {i : Instr} {s : State} {w : Word} (hrefused : s.refused = false)
    (hw : commandWord s = some w) : RunPosition (nextState i s) := by
  obtain ⟨hpc, -⟩ := List.getElem?_eq_some_iff.mp hw
  exact ⟨hpc, fun h => absurd h (by simp [nextState, hrefused])⟩

/-! ### The obligations -/

/-- Settles O9: the command port's answer to a word the decoder accepts. -/
theorem stepRunsDecodedCommand : Obligations.StepRunsDecodedCommand :=
  fun _ _ _ h hw hdec => step_of_decode_ok h hw hdec

/-- Settles O10: the word is marked, and the marked state's run has ended under the decoder's reason. -/
theorem refusedWordOnlySetsItsMark : Obligations.RefusedWordOnlySetsItsMark := by
  intro s w why h hw hdec
  refine ⟨step_of_decode_error h hw hdec, (step_of_refused rfl).trans ?_⟩
  exact congrArg _ (endReason_of_decode_error hw hdec)

/-- Settles O11: the command port's two answers that end a run. -/
theorem endedRunHasNoStep : Obligations.EndedRunHasNoStep :=
  ⟨fun _ h => ⟨_, step_of_refused h⟩, fun s h hpc => step_of_exhausted h ((commandWord_eq_none_iff s).mpr hpc)⟩

/-- Settles O12: a run that has ended is refused, and any other has a next state. -/
theorem stepNeverFaults : Obligations.StepNeverFaults := by
  intro s
  by_cases hend : s.refused = true ∨ s.cmds.length ≤ s.pc
  · obtain ⟨r, hstep⟩ := exists_refusal hend
    exact ⟨fun f => by simp [hstep], iff_of_true ⟨r, hstep⟩ hend⟩
  · obtain ⟨hrefused, hpc⟩ := not_or.mp hend
    obtain ⟨t, hstep⟩ := exists_step (Bool.eq_false_iff.mpr hrefused) (Nat.lt_of_not_le hpc)
    exact ⟨fun f => by simp [hstep], iff_of_false (by simp [hstep]) hend⟩

/-- Settles O47: a mark clears nothing, and of a command's flags R150's conditions are only ever added. -/
theorem flagsAndLogNeverShrink : Obligations.FlagsAndLogNeverShrink := by
  intro s t h
  obtain ⟨rfl, -⟩ | ⟨hrefused, w, i, -, -, rfl⟩ := step_next_cases h
  · exact ⟨id, id, id, id, fun _ => rfl, List.prefix_rfl⟩
  · obtain ⟨t, hexec, hv1, hv2, hv3, hv4⟩ := flagsSetByTheirConditions i s
    rw [exec_eq_nextState] at hexec
    cases hexec
    exact ⟨fun h => hv1.mpr (.inl h), fun h => hv2.mpr (.inl h), fun h => hv3.mpr (.inl h), fun h => hv4.mpr (.inl h),
      id, List.prefix_append _ _⟩

/-- Settles O48: the events a decoded command appends are legal, and the lines are what they leave. -/
theorem linesFollowLineActions : Obligations.LinesFollowLineActions := by
  intro s t h
  obtain ⟨rfl, -⟩ | ⟨-, w, i, -, hdec, rfl⟩ := step_next_cases h
  · rw [gained_markRefused]
    exact ⟨rfl, fun _ => List.not_mem_nil, fun _ => id⟩
  · have hlegal := eventsOf_legal hdec s
    rw [gained_nextState]
    refine ⟨rfl, act_unknown_notMem hlegal, fun l hl => ?_⟩
    rw [← linesOf_get] at hl ⊢
    exact linesAfter_get_ne_unknown hlegal hl

/-- Settles O50: a mark stands at a word the decoder refuses, and a command keeps each part of the invariant. -/
theorem stepKeepsInvariant : Obligations.StepKeepsInvariant := by
  rintro s t ⟨hlog, hres, hpos⟩ h
  obtain ⟨rfl, hword⟩ | ⟨hrefused, w, i, hw, hdec, rfl⟩ := step_next_cases h
  · exact ⟨hlog, hres, hpos.1, fun _ => hword⟩
  · exact ⟨logExplainsLines_nextState (eventsOf_legal hdec s) hlog, resultNeedsSample_nextState hres,
      runPosition_nextState hrefused hw⟩

/-- Settles O51: the log is empty, and so is the host's list. -/
theorem resetMeetsInvariant : Obligations.ResetMeetsInvariant :=
  ⟨⟨rfl, rfl, rfl⟩, iff_of_true rfl rfl, Nat.le_refl 0, fun h => Bool.noConfusion h⟩

/-- Settles O52: the word at `pc` keeps its place in the longer list. -/
theorem issueKeepsInvariant : Obligations.IssueKeepsInvariant := by
  rintro ws s ⟨hlog, hres, hpc, hrefused⟩
  refine ⟨hlog, hres, ?_, fun h => ?_⟩
  · rw [issue_cmds, List.length_append]
    exact Nat.le_add_right_of_le hpc
  · obtain ⟨w, why, hw, hdec⟩ := hrefused h
    obtain ⟨hlt, -⟩ := List.getElem?_eq_some_iff.mp hw
    exact ⟨w, why, (List.getElem?_append_left hlt).trans hw, hdec⟩

/-- Settles O53: the mark stands at a refused word, under whose reason the run has ended. -/
theorem endOfRefusedRunNamesItsReason : Obligations.EndOfRefusedRunNamesItsReason := by
  rintro s ⟨-, -, -, hword⟩ h
  obtain ⟨w, why, hw, hdec⟩ := hword h
  exact ⟨w, why, hw, hdec, by rw [step_of_refused h, endReason_of_decode_error hw hdec]⟩

end Sys2Proof.Machine
end

section
/-! Samples and the environment's answers (R23, R24), and IDLE and START in the other release order (R7, I8). -/

namespace Sys2Proof.Machine

/-- R23: a sample reads the level of the line, where the host's drive or the bus gives it one. -/
theorem level_eq_sampleBit {s : State} (h : s.drvSda ≠ .unknown) : level s.drvSda (envBit s) = some (sampleBit s) := by
  cases hsda : s.drvSda with
  | low => exact congrArg some (sample_low hsda).1.symm
  | released => exact congrArg some (sample_released hsda).1.symm
  | unknown => exact absurd hsda h

/-- R24: the first listed answer is the environment's next one. -/
theorem envBit_of_envAnswers {s : State} {b : Bit} {rest : List Bit} (h : s.envAnswers = b :: rest) :
    envBit s = b := by
  rw [envBit, h, List.headD_cons]

/-- R24: a sample takes the first listed answer where `SDA` is released, and none elsewhere. -/
theorem afterDraw_envAnswers (s : State) :
    (afterDraw s).envAnswers = if s.drvSda = .released then s.envAnswers.tail else s.envAnswers := by
  rw [afterDraw_eq]
  rfl

/-! ### The obligations -/

/-- Settles O19: the bit SENSE logs is `sampleBit`. -/
theorem sampleReadsLineLevel : Obligations.SampleReadsLineLevel :=
  fun s h => ⟨sampleBit s, _, exec_senseSda s, rfl, level_eq_sampleBit h⟩

/-- Settles O20: the draw of each sample, and the bit it gives. -/
theorem samplesTakeAnswersInOrder : Obligations.SamplesTakeAnswersInOrder := by
  intro s b rest h
  have hbit := envBit_of_envAnswers h
  refine ⟨fun hsda => ⟨_, exec_senseSda s, ?_, ?_⟩, fun hsda => ⟨_, exec_senseSda s, ?_⟩,
    fun v => ⟨_, exec_writeByte v s, ?_, ?_⟩⟩
  · rw [(sample_released hsda).1, hbit]
  · rw [afterDraw_envAnswers, if_pos hsda, h, List.tail_cons]
  · rw [afterDraw_envAnswers, if_neg hsda, h]
  · rw [hbit, acknowledged]
  · rw [h, List.tail_cons]

/-- Settles O28: the two next states in either order, with the order's own two release events. -/
theorem otherReleaseOrderSwapsTwoEvents : Obligations.OtherReleaseOrderSwapsTwoEvents := by
  intro s h
  constructor
  · rw [exec_idle, settled_and_not_transitions, h]
    rfl
  · rw [exec_start, h]
    rfl

end Sys2Proof.Machine
end

section
/-! A frame of whole bytes (START, any number of WRITE_BYTEs, STOP): the events it appends, what it leaves, and the
counts and durations of R160's table, for a command and for a frame. -/

namespace Sys2Proof.Machine

open Safety

/-! ### The run of a frame -/

/-- The events of WRITE_BYTE `v` with acknowledgment sample `x` (R105). -/
def byteEvents (v : Byte) (x : Bit) : List Event := (wireBits v).flatMap slotEvents ++ ackEvents x

/-- The events of the bytes of a frame, each with its sample. -/
def bytesEvents (vs : List Byte) (xs : List Bit) : List Event := (List.zipWith byteEvents vs xs).flatten

/-- The events of START (R101); it takes no sample. -/
def startEvents (o : Config.ReleaseOrder) : List Event := commandEvents o false .start

/-- The events of STOP (R107), in which no release order shows. -/
def stopEvents : List Event := commandEvents .sdaFirst false .stop

/-- The events of a frame of whole bytes. -/
def frameEvents (o : Config.ReleaseOrder) (vs : List Byte) (xs : List Bit) : List Event :=
  startEvents o ++ bytesEvents vs xs ++ stopEvents

@[simp] theorem bytesEvents_cons (v : Byte) (vs : List Byte) (x : Bit) (xs : List Bit) :
    bytesEvents (v :: vs) (x :: xs) = byteEvents v x ++ bytesEvents vs xs := rfl

/-- R105, R153: bytes written under a low clock append their events, set no flag and leave the clock low. -/
theorem execAll_bytes (vs : List Byte) {s : State} (h : s.drvScl = .low) :
    ∃ t xs, execAll (vs.map .writeByte) s = some t ∧ xs.length = vs.length ∧ t.log = s.log ++ bytesEvents vs xs ∧
      t.drvScl = .low ∧ flagFree t = flagFree s := by
  induction vs generalizing s with
  | nil => exact ⟨s, [], rfl, rfl, (List.append_nil _).symm, h, rfl⟩
  | cons v vs ih =>
    obtain ⟨t, xs, hrun, hlen, hlog, hlow, hflags⟩ := ih (s := nextState (.writeByte v) s) rfl
    refine ⟨t, envBit s :: xs, (execAll_cons (exec_eq_nextState _ s) _).trans hrun, congrArg _ hlen, ?_, hlow, ?_⟩
    · rw [hlog, bytesEvents_cons, ← List.append_assoc]
      rfl
    · rw [hflags]
      simp [flagFree, nextState, v1After, v2After, v3After, v4After, h]

/-- R101: START leaves both lines low. -/
theorem linesOf_start (s : State) : linesOf (nextState .start s) = ⟨.low, .low⟩ := by
  rw [linesOf_nextState, eventsOf, commandEvents, linesAfter_append]
  rfl

/-- R151: START flags an unfinished byte and nothing else. -/
theorem flagFree_start (s : State) : flagFree (nextState .start s) = (flagFree s && s.bitsPending == 0) := by
  cases h : s.bitsPending == 0 <;> simp [flagFree, nextState, v1After, v2After, v3After, v4After, bne, h]

/-- R101 to R107, R150: a frame of whole bytes appends its events, ends at rest, and sets no flag but START's `V1`. -/
theorem execAll_frame (vs : List Byte) (s : State) :
    ∃ t xs, execAll (.start :: vs.map .writeByte ++ [.stop]) s = some t ∧ xs.length = vs.length ∧
      t.log = s.log ++ frameEvents s.releaseOrder vs xs ∧ linesOf t = ⟨.released, .released⟩ ∧
      t.bitsPending = 0 ∧ t.settled = true ∧ flagFree t = (flagFree s && s.bitsPending == 0) := by
  obtain ⟨t, xs, hrun, hlen, hlog, -, hflags⟩ := execAll_bytes vs (congrArg Lines.scl (linesOf_start s))
  refine ⟨nextState .stop t, xs, ?_, hlen, ?_, rfl, rfl, rfl, ?_⟩
  · rw [List.cons_append, execAll_cons (exec_eq_nextState .start s), execAll_append, hrun, Option.bind_some,
      execAll_cons (exec_eq_nextState .stop t), execAll_nil]
  · show t.log ++ stopEvents = _
    rw [hlog, frameEvents, ← List.append_assoc, ← List.append_assoc]
    rfl
  · show flagFree t = _
    rw [hflags, flagFree_start]

/-! ### Counts and durations (R160) -/

theorem eventCounts_append (es fs : List Event) :
    eventCounts (es ++ fs) =
      ⟨(eventCounts es).lineActions + (eventCounts fs).lineActions, (eventCounts es).quanta + (eventCounts fs).quanta,
        (eventCounts es).samples + (eventCounts fs).samples⟩ := by
  simp [eventCounts]

theorem otherEvents_append (es fs : List Event) : otherEvents (es ++ fs) = otherEvents es ++ otherEvents fs :=
  List.filter_append es fs

/-- R160: the counts of every command are the table's. -/
theorem eventCounts_commandEvents (o : Config.ReleaseOrder) (x : Bit) (i : Instr) :
    eventCounts (commandEvents o x i) = tableCounts i := by
  cases i with
  | idle | start => cases o <;> rfl
  | _ => rfl

theorem eventCounts_byteEvents (v : Byte) (x : Bit) : eventCounts (byteEvents v x) = ⟨27, 27, 1⟩ :=
  eventCounts_commandEvents .sdaFirst x (.writeByte v)

/-- R160: the other event of every command is the table's. -/
theorem otherEvents_commandEvents (o : Config.ReleaseOrder) (x : Bit) (i : Instr) :
    otherEvents (commandEvents o x i) = tableOther i := by
  cases i with
  | idle | start => cases o <;> rfl
  | _ => rfl

theorem otherEvents_byteEvents (v : Byte) (x : Bit) : otherEvents (byteEvents v x) = [] :=
  otherEvents_commandEvents .sdaFirst x (.writeByte v)

/-- R160: only the quanta and the other events take time. -/
theorem minDuration_eq (es : List Event) :
    minDuration es = (eventCounts es).quanta * (Config.busQuantum : Nat) + minDuration (otherEvents es) := by
  induction es with
  | nil => simp [minDuration, eventCounts, otherEvents]
  | cons e es ih =>
    have he : minDuration [e] =
        (eventCounts [e]).quanta * (Config.busQuantum : Nat) + minDuration (otherEvents [e]) := by
      cases e <;> simp [minDuration, eventCounts, otherEvents, eventTime, isAct, isSample]
    rw [← List.singleton_append, minDuration_append, eventCounts_append, otherEvents_append, minDuration_append,
      he, ih]
    ring

/-- R160: the least duration of every command is the table's. -/
theorem minDuration_commandEvents (o : Config.ReleaseOrder) (x : Bit) (i : Instr) :
    minDuration (commandEvents o x i) = tableDuration i := by
  rw [minDuration_eq, eventCounts_commandEvents, otherEvents_commandEvents]
  cases i <;> simp [tableCounts, tableOther, tableDuration, minDuration, eventTime]

/-- R160: each byte of a frame counts as one WRITE_BYTE. -/
theorem eventCounts_bytesEvents {vs : List Byte} {xs : List Bit} (h : xs.length = vs.length) :
    eventCounts (bytesEvents vs xs) = ⟨27 * vs.length, 27 * vs.length, vs.length⟩ := by
  induction vs generalizing xs with
  | nil => rfl
  | cons v vs ih =>
    obtain ⟨x, xs, rfl⟩ := List.exists_cons_of_length_eq_add_one h
    rw [bytesEvents_cons, eventCounts_append, eventCounts_byteEvents, ih (Nat.succ.inj h)]
    simp [Nat.mul_add, Nat.add_comm]

/-- R160: the bytes of a frame append no other events. -/
theorem otherEvents_bytesEvents (vs : List Byte) (xs : List Bit) : otherEvents (bytesEvents vs xs) = [] := by
  induction vs generalizing xs with
  | nil => rfl
  | cons v vs ih =>
    cases xs with
    | nil => rfl
    | cons x xs => rw [bytesEvents_cons, otherEvents_append, otherEvents_byteEvents, ih, List.append_nil]

/-- R160: the counts of a frame of whole bytes. -/
theorem eventCounts_frameEvents (o : Config.ReleaseOrder) {vs : List Byte} {xs : List Bit}
    (h : xs.length = vs.length) :
    eventCounts (frameEvents o vs xs) = ⟨7 + 27 * vs.length, 6 + 27 * vs.length, vs.length⟩ := by
  rw [frameEvents, eventCounts_append, eventCounts_append, startEvents, stopEvents, eventCounts_commandEvents,
    eventCounts_commandEvents, eventCounts_bytesEvents h, tableCounts, tableCounts]
  simp only [EventCounts.mk.injEq]
  omega

/-- R160: the least duration of a frame is that of its quanta. -/
theorem minDuration_frameEvents (o : Config.ReleaseOrder) {vs : List Byte} {xs : List Bit}
    (h : xs.length = vs.length) :
    minDuration (frameEvents o vs xs) = (6 + 27 * vs.length) * (Config.busQuantum : Nat) := by
  rw [minDuration_eq, eventCounts_frameEvents o h, frameEvents, otherEvents_append, otherEvents_append, startEvents,
    stopEvents, otherEvents_commandEvents, otherEvents_commandEvents, otherEvents_bytesEvents]
  rfl

/-! ### The obligations -/

/-- Settles O37: the table holds of the events each command appends, and three bytes' frame adds up its commands. -/
theorem eventCountsOfTheTable : Obligations.EventCountsOfTheTable := by
  refine ⟨fun i s _ => ⟨_, exec_eq_nextState i s, ?_⟩, fun a b c s => ?_⟩
  · rw [gained_nextState]
    exact ⟨eventCounts_commandEvents _ _ i, otherEvents_commandEvents _ _ i, minDuration_commandEvents _ _ i⟩
  · obtain ⟨t, xs, hrun, hlen, hlog, -⟩ := execAll_frame [a, b, c] s
    refine ⟨t, hrun, ?_⟩
    rw [gained_of_log_eq_append hlog]
    exact ⟨eventCounts_frameEvents _ hlen, minDuration_frameEvents _ hlen⟩

/-- Settles O49: the run of a frame, from a state in which START has no unfinished byte to flag. -/
theorem wholeByteFrameSetsNoFlag : Obligations.WholeByteFrameSetsNoFlag := by
  intro vs s hfree hpending
  obtain ⟨t, xs, hrun, -, -, hlines, hbits, hsettled, hflags⟩ := execAll_frame vs s
  exact ⟨t, hrun, by simp [hflags, hfree, hpending], hlines, hbits, hsettled⟩

end Sys2Proof.Machine
end

section
/-! The waveform (R27): its line actions are the transitions, and cutting the delays off both ends leaves everything
from the first line action to the last. -/

namespace Sys2Proof.Machine

/-! ### Line actions and delays -/

theorem isWait_eq_false_of_isAct {e : Event} (h : isAct e = true) : isWait e = false := by
  cases e with
  | act l d => rfl
  | _ => cases h

theorem isAct_of_isTransition {x : Lines} {e : Event} (h : isTransition x e = true) : isAct e = true := by
  cases e with
  | act l d => rfl
  | _ => cases h

/-! ### Cutting the delays off both ends -/

/-- A list that starts with no delay keeps its place behind what is cut off before it. -/
theorem dropWhile_isWait_append (as : List Event) {e : Event} (he : isWait e = false) (bs : List Event) :
    (as ++ e :: bs).dropWhile isWait = as.dropWhile isWait ++ e :: bs := by
  rw [List.dropWhile_append]
  split
  · next h => rw [List.isEmpty_iff.mp h, List.dropWhile_cons_of_neg (by simp [he]), List.nil_append]
  · rfl

/-- The first event left is no delay. -/
theorem isWait_of_head?_dropWhile {es : List Event} {e : Event} (h : (es.dropWhile isWait).head? = some e) :
    isWait e = false := by
  simpa [h] using List.head?_dropWhile_not isWait es

theorem trimWaits_prefix (es : List Event) : trimWaits es <+: es.dropWhile isWait :=
  List.rdropWhile_prefix isWait _

theorem trimWaits_sublist (es : List Event) : (trimWaits es).Sublist es :=
  (trimWaits_prefix es).sublist.trans (List.dropWhile_sublist isWait)

theorem isWait_of_head?_trimWaits {es : List Event} {e : Event} (h : (trimWaits es).head? = some e) :
    isWait e = false := by
  obtain ⟨rest, hrest⟩ := trimWaits_prefix es
  exact isWait_of_head?_dropWhile (by rw [← hrest, List.head?_append, h, Option.some_or])

theorem isWait_of_getLast?_trimWaits {es : List Event} {e : Event} (h : (trimWaits es).getLast? = some e) :
    isWait e = false := by
  rw [trimWaits, List.getLast?_reverse] at h
  exact isWait_of_head?_dropWhile h

/-- Cutting delays off the front loses no line action. -/
theorem filter_isAct_dropWhile (es : List Event) : (es.dropWhile isWait).filter isAct = es.filter isAct := by
  have hcut : (es.takeWhile isWait).filter isAct = [] := List.filter_eq_nil_iff.mpr fun e he hact => by
    simpa [isWait_eq_false_of_isAct hact] using List.mem_takeWhile_imp he
  calc (es.dropWhile isWait).filter isAct
      = (es.takeWhile isWait ++ es.dropWhile isWait).filter isAct := by rw [List.filter_append, hcut, List.nil_append]
    _ = es.filter isAct := by rw [List.takeWhile_append_dropWhile]

theorem filter_isAct_trimWaits (es : List Event) : (trimWaits es).filter isAct = es.filter isAct := by
  rw [trimWaits, List.filter_reverse, filter_isAct_dropWhile, List.filter_reverse, List.reverse_reverse,
    filter_isAct_dropWhile]

/-- What stands between two events that are no delays is not cut. -/
theorem infix_trimWaits {e f : Event} (he : isWait e = false) (hf : isWait f = false) (as mid bs : List Event) :
    [e] ++ mid ++ [f] <:+: trimWaits (as ++ ([e] ++ mid ++ [f]) ++ bs) := by
  refine ⟨as.dropWhile isWait, (bs.reverse.dropWhile isWait).reverse, ?_⟩
  have hfront : (as ++ ([e] ++ mid ++ [f]) ++ bs).dropWhile isWait =
      (as.dropWhile isWait ++ [e] ++ mid) ++ f :: bs := by
    simpa using dropWhile_isWait_append as he (mid ++ f :: bs)
  rw [trimWaits, hfront]
  simp [dropWhile_isWait_append _ hf]

/-! ### The transitions and all the delays of a list -/

/-- Beside the delays, what is kept of a list is its transitions. -/
theorem filter_isAct_transitionsAndWaits (x : Lines) (es : List Event) :
    (transitionsAndWaits x es).filter isAct = transitions x es := by
  induction es generalizing x with
  | nil => rfl
  | cons e es ih =>
    rw [transitionsAndWaits, transitions, List.filter_append, ih]
    cases e <;> simp [isTransition, isWait, isAct]

/-- What is kept of a list and is no delay is a line action. -/
theorem isAct_of_mem_transitionsAndWaits {x : Lines} {es : List Event} {e : Event}
    (h : e ∈ transitionsAndWaits x es) (hwait : isWait e = false) : isAct e = true := by
  induction es generalizing x with
  | nil => cases h
  | cons f es ih =>
    obtain hf | hes := List.mem_append.mp h
    · split at hf
      · next hkept =>
        obtain rfl := List.mem_singleton.mp hf
        exact isAct_of_isTransition (x := x) (by simpa [hwait] using hkept)
      · cases hf
    · exact ih hes

/-- A transition is kept. -/
theorem transitionsAndWaits_singleton {x : Lines} {e : Event} (h : isTransition x e = true) :
    transitionsAndWaits x [e] = [e] := by
  simp [transitionsAndWaits, h]

/-- Of a list without transitions the delays are kept. -/
theorem transitionsAndWaits_of_transitions_eq_nil {x : Lines} {es : List Event} (h : transitions x es = []) :
    transitionsAndWaits x es = es.filter isWait := by
  induction es generalizing x with
  | nil => rfl
  | cons e es ih =>
    obtain ⟨he, hes⟩ := List.append_eq_nil_iff.mp h
    have hno : isTransition x e = false := by simpa using he
    rw [transitionsAndWaits, ih hes, hno, Bool.false_or, List.filter_cons]
    cases isWait e <;> rfl

/-- Two consecutive transitions and the delays between them stand together in what is kept of a list. -/
theorem transitionsAndWaits_between {x : Lines} {before mid after : List Event} {e f : Event}
    (he : isTransition (linesAfter x before) e = true) (hmid : transitions (linesAfter x (before ++ [e])) mid = [])
    (hf : isTransition (linesAfter x (before ++ [e] ++ mid)) f = true) :
    transitionsAndWaits x (before ++ [e] ++ mid ++ [f] ++ after) =
      transitionsAndWaits x before ++ ([e] ++ mid.filter isWait ++ [f]) ++
        transitionsAndWaits (linesAfter x (before ++ [e] ++ mid ++ [f])) after := by
  rw [transitionsAndWaits_append, transitionsAndWaits_append, transitionsAndWaits_append, transitionsAndWaits_append,
    transitionsAndWaits_singleton he, transitionsAndWaits_of_transitions_eq_nil hmid, transitionsAndWaits_singleton hf]
  simp only [List.append_assoc]

/-! ### The obligation -/

/-- An event of the waveform that is no delay is a line action. -/
theorem isAct_of_mem_waveform {x : Lines} {es : List Event} {e : Event} (h : e ∈ waveform x es)
    (hwait : isWait e = false) : isAct e = true :=
  isAct_of_mem_transitionsAndWaits ((trimWaits_sublist _).mem h) hwait

/-- Settles O38: the ends are no delays, trimming loses no line action, and nothing between two of them. -/
theorem waveformIsTransitionsAndDelaysBetween : Obligations.WaveformIsTransitionsAndDelaysBetween := by
  intro x es
  refine ⟨fun e h => ?_, fun e h => ?_, ?_, ?_⟩
  · exact isAct_of_mem_waveform (List.mem_of_head? h) (isWait_of_head?_trimWaits h)
  · exact isAct_of_mem_waveform (List.mem_of_getLast? h) (isWait_of_getLast?_trimWaits h)
  · rw [waveform, filter_isAct_trimWaits, filter_isAct_transitionsAndWaits]
  · rintro before mid after e f rfl he hmid hf
    rw [waveform, transitionsAndWaits_between he hmid hf]
    exact infix_trimWaits (isWait_eq_false_of_isAct (isAct_of_isTransition he))
      (isWait_eq_false_of_isAct (isAct_of_isTransition hf)) _ _ _

end Sys2Proof.Machine
end

section
/-! The wire (R111): what the harness's walk makes of START from any walk, of a bit slot, of a written byte and of STOP,
and what it decodes from a frame of whole bytes. -/

namespace Sys2Proof.Machine

/-! ### The walk keeps its items -/

theorem addSlot_items_prefix (b : BitSlot) (w : WireWalk) : w.items <+: (w.addSlot b).items := by
  unfold WireWalk.addSlot
  split
  · split
    · exact List.prefix_append _ _
    · exact List.prefix_rfl
  · exact List.prefix_rfl

theorem endPeriod_items_prefix (w : WireWalk) : w.items <+: w.endPeriod.items := by
  unfold WireWalk.endPeriod
  split
  · exact List.prefix_rfl
  · next p _ =>
    dsimp only
    split
    · exact List.prefix_rfl
    · exact addSlot_items_prefix _ { w with period := none }

/-- R111: a condition is the last item, behind all seen before and the group it ends. -/
theorem condition_items (isStart : Bool) (w : WireWalk) :
    ∃ before, w.items <+: before ∧
      (w.condition isStart).items = before ++ [if isStart then WireItem.startCondition else WireItem.stopCondition] :=
  ⟨_, List.prefix_append _ _, rfl⟩

theorem condition_items_prefix (isStart : Bool) (w : WireWalk) : w.items <+: (w.condition isStart).items := by
  obtain ⟨before, hprefix, hitems⟩ := condition_items isStart w
  exact hitems ▸ hprefix.trans (List.prefix_append _ _)

theorem sdaAction_items_prefix (d : Drive) (w : WireWalk) : w.items <+: (w.sdaAction d).items := by
  unfold WireWalk.sdaAction
  split
  · cases d with
    | low => exact condition_items_prefix true w
    | released => exact condition_items_prefix false w
    | unknown => exact List.prefix_rfl
  · exact List.prefix_rfl

theorem sclAction_items_prefix (d : Drive) (w : WireWalk) : w.items <+: (w.sclAction d).items := by
  cases d with
  | low => exact endPeriod_items_prefix w
  | released =>
    dsimp only [WireWalk.sclAction]
    split <;> exact List.prefix_rfl
  | unknown => exact List.prefix_rfl

/-- R111: no event takes an item back. -/
theorem next_items_prefix (e : Event) (w : WireWalk) : w.items <+: (w.next e).items := by
  cases e with
  | act l d =>
    cases l with
    | scl => exact sclAction_items_prefix d w
    | sda => exact sdaAction_items_prefix d w
  | _ => exact List.prefix_rfl

theorem foldl_next_items_prefix (es : List Event) (w : WireWalk) : w.items <+: (es.foldl WireWalk.next w).items := by
  induction es generalizing w with
  | nil => exact List.prefix_rfl
  | cons e es ih => exact (next_items_prefix e w).trans (ih _)

/-- The walk tracks the drive states, from wherever it begins. -/
theorem foldl_next_lines (es : List Event) (w : WireWalk) :
    (es.foldl WireWalk.next w).lines = linesAfter w.lines es := by
  induction es generalizing w with
  | nil => rfl
  | cons e es ih => exact ih (w.next e)

/-! ### Conditions -/

/-- R111: a clock-high period, if one is open, holds a condition and so is no bit slot. -/
def HoldsCondition (w : WireWalk) : Prop := ∀ p, w.period = some p → p.condition = true

theorem holdsCondition_condition (isStart : Bool) (w : WireWalk) : HoldsCondition (w.condition isStart) := by
  intro p hp
  obtain ⟨q, -, rfl⟩ := Option.map_eq_some_iff.mp hp
  rfl

/-- R111: such a period ends without a trace. -/
theorem endPeriod_of_holdsCondition {w : WireWalk} (h : HoldsCondition w) :
    w.endPeriod = { w with period := none } := by
  unfold WireWalk.endPeriod
  split
  · next hp => rw [← hp]
  · next p hp => rw [if_pos (h p hp)]

/-- R111: a low clock ends it. -/
theorem next_driveLowScl_of_holdsCondition {w : WireWalk} (h : HoldsCondition w) :
    w.next (.act .scl .low) = { w with lines := ⟨.low, w.lines.sda⟩, period := none } := by
  simp [WireWalk.next, WireWalk.sclAction, endPeriod_of_holdsCondition h, Lines.after]

/-- R111: `SDA` rising from low while the clock is released: the STOP condition. -/
theorem next_releaseSda_of_low {w : WireWalk} (h : w.lines = ⟨.released, .low⟩) :
    w.next (.act .sda .released) = { w.condition false with lines := ⟨.released, .released⟩ } := by
  simp [WireWalk.next, sdaAction_released_of_low h, Lines.after, h]

/-- R111: with no bit slot pending, a log that ends with the STOP condition adds it and nothing else. -/
theorem endPeriod_items_of_releaseSda {w : WireWalk} (h : w.lines = ⟨.released, .low⟩) (hgroup : w.group = []) :
    (w.next (.act .sda .released)).endPeriod.items = w.items ++ [WireItem.stopCondition] := by
  have hcond : HoldsCondition { w.condition false with lines := ⟨.released, .released⟩ } :=
    holdsCondition_condition false w
  rw [next_releaseSda_of_low h, endPeriod_of_holdsCondition hcond]
  simp [WireWalk.condition, hgroup]

/-- R111: letting go of a clock that is released already begins no period. -/
theorem next_releaseScl_of_released {w : WireWalk} {d : Drive} (h : w.lines = ⟨.released, d⟩) :
    w.next (.act .scl .released) = w := by
  obtain ⟨lines, period, inFrame, group, items⟩ := w
  cases h
  rfl

/-! ### A frame -/

/-- The walk inside a frame, the clock low: the drive state of `SDA`, the bit slots of the group begun, the items. -/
def frameWalk (d : Drive) (group : List BitSlot) (items : List WireItem) : WireWalk :=
  ⟨⟨.low, d⟩, none, true, group, items⟩

/-- R101: whatever the walk has seen, START's events end in a START condition behind all of it, and begin a frame. -/
theorem walk_startEvents (o : Config.ReleaseOrder) (w : WireWalk) :
    ∃ before, w.items <+: before ∧
      (startEvents o).foldl WireWalk.next w = frameWalk .low [] (before ++ [WireItem.startCondition]) := by
  obtain ⟨u, hu⟩ : ∃ u, (releaseEvents o).foldl WireWalk.next w = u := ⟨_, rfl⟩
  have hlines : u.lines = ⟨.released, .released⟩ := by
    rw [← hu, foldl_next_lines, linesAfter_releaseEvents]
  obtain ⟨before, hprefix, hitems⟩ := condition_items true u
  refine ⟨before, (hu ▸ foldl_next_items_prefix _ w).trans hprefix, ?_⟩
  rw [startEvents, commandEvents, List.foldl_append, hu]
  simp only [List.foldl_cons, List.foldl_nil, next_q]
  have hcond : HoldsCondition { u.condition true with lines := ⟨.released, .low⟩ } := holdsCondition_condition true u
  rw [next_driveLowSda_of_released hlines, next_driveLowScl_of_holdsCondition hcond, hitems]
  rfl

/-- R111: in a group of fewer than eight, a further bit slot is appended. -/
theorem addSlot_frameWalk {group : List BitSlot} (h : group.length < 8) (b : BitSlot) (d : Drive)
    (items : List WireItem) :
    (frameWalk d group items).addSlot b = frameWalk d (group ++ [b]) items := by
  simp [WireWalk.addSlot, frameWalk, Nat.ne_of_lt h]

/-- R111: the ninth slot completes the wire byte of the eight before it. -/
theorem addSlot_frameWalk_ninth {group : List BitSlot} (h : group.length = 8) (b : BitSlot) (d : Drive)
    (items : List WireItem) :
    (frameWalk d group items).addSlot b =
      frameWalk d [] (items ++ [WireItem.wireByte (byteOfBits (group.map BitSlot.hostBit)) b.hostBit b.samples]) := by
  simp [WireWalk.addSlot, frameWalk, h]

/-- A further slot neither looks at the lines nor moves them. -/
theorem addSlot_with_lines (b : BitSlot) (w : WireWalk) (x : Lines) :
    { w.addSlot b with lines := x } = { w with lines := x }.addSlot b := by
  unfold WireWalk.addSlot
  dsimp only
  split
  · split <;> rfl
  · rfl

/-- R111: a clock-high period that held no condition ends as a bit slot. -/
theorem next_driveLowScl_of_slot (d : Drive) (bs : List Bit) (group : List BitSlot) (items : List WireItem) :
    WireWalk.next ⟨⟨.released, d⟩, some ⟨false, bs⟩, true, group, items⟩ (.act .scl .low) =
      (frameWalk d group items).addSlot ⟨d, bs⟩ :=
  addSlot_with_lines ⟨d, bs⟩ ⟨⟨.released, d⟩, none, true, group, items⟩ ⟨.low, d⟩

/-- The bit slot a written bit makes. -/
def writtenSlot (b : Bit) : BitSlot := ⟨dataDrive b, []⟩

@[simp] theorem hostBit_writtenSlot (b : Bit) : (writtenSlot b).hostBit = b := by
  cases b <;> rfl

/-- R113: a bit slot's events are one bit slot on the wire. -/
theorem walk_slotEvents (b : Bit) (d : Drive) (group : List BitSlot) (items : List WireItem) :
    (slotEvents b).foldl WireWalk.next (frameWalk d group items) =
      (frameWalk (dataDrive b) group items).addSlot (writtenSlot b) := by
  simp only [slotEvents, List.foldl_cons, List.foldl_nil, next_q]
  rw [next_sda_of_scl_low rfl, next_releaseScl_of_low rfl]
  exact next_driveLowScl_of_slot ..

/-- R105: the acknowledgment read's events are one bit slot with its sample. -/
theorem walk_ackEvents (x : Bit) (d : Drive) (group : List BitSlot) (items : List WireItem) :
    (ackEvents x).foldl WireWalk.next (frameWalk d group items) =
      (frameWalk .released group items).addSlot ⟨.released, [x]⟩ := by
  simp only [ackEvents, List.foldl_cons, List.foldl_nil, next_q]
  rw [next_sda_of_scl_low rfl, next_releaseScl_of_low rfl]
  exact next_driveLowScl_of_slot ..

/-- A bit shifted in from the right is bit 0; the others move up. -/
theorem getLsbD_shiftIn (v : Byte) (b : Bit) (i : Nat) :
    ((v <<< 1) ||| (if b then 1#8 else 0#8)).getLsbD i = if i = 0 then b else decide (i < 8) && v.getLsbD (i - 1) := by
  cases i with
  | zero => cases b <;> simp
  | succ i => cases b <;> simp

/-- R42, R111: the bits of a byte, first to last, make it up again. -/
theorem byteOfBits_wireBits (v : Byte) : byteOfBits (wireBits v) = v := by
  apply BitVec.eq_of_getLsbD_eq
  intro i hi
  simp only [byteOfBits, wireBits, List.foldl_cons, List.foldl_nil, getLsbD_shiftIn, byteBit]
  interval_cases i <;> rfl

/-- R113: a row of bit slots that the group has room for is appended to it. -/
theorem walk_slots {bs : List Bit} {group : List BitSlot} (h : group.length + bs.length ≤ 8) (d : Drive)
    (items : List WireItem) :
    ∃ d', (bs.flatMap slotEvents).foldl WireWalk.next (frameWalk d group items) =
      frameWalk d' (group ++ bs.map writtenSlot) items := by
  induction bs generalizing d group with
  | nil => exact ⟨d, by simp⟩
  | cons b bs ih =>
    rw [List.length_cons] at h
    have hroom : (group ++ [writtenSlot b]).length + bs.length ≤ 8 := by
      rw [List.length_append, List.length_singleton]
      omega
    obtain ⟨d', hwalk⟩ := ih hroom (dataDrive b)
    refine ⟨d', ?_⟩
    rw [List.flatMap_cons, List.foldl_append, walk_slotEvents, addSlot_frameWalk (by omega), hwalk,
      List.map_cons, ← List.append_cons]

/-- R105, R111: the events of a byte are its wire byte, with the host off `SDA` in the acknowledgment slot. -/
theorem walk_byteEvents (v : Byte) (x : Bit) (d : Drive) (items : List WireItem) :
    (byteEvents v x).foldl WireWalk.next (frameWalk d [] items) =
      frameWalk .released [] (items ++ [WireItem.wireByte v true [x]]) := by
  obtain ⟨d', hslots⟩ := walk_slots (bs := wireBits v) (group := []) (Nat.le_refl 8) d items
  have hbits : ([] ++ (wireBits v).map writtenSlot).map BitSlot.hostBit = wireBits v := by
    simp [Function.comp_def]
  rw [byteEvents, List.foldl_append, hslots, walk_ackEvents, addSlot_frameWalk_ninth rfl, hbits, byteOfBits_wireBits]
  rfl

/-- The wire bytes of a frame, each with its acknowledgment sample. -/
def byteItems (vs : List Byte) (xs : List Bit) : List WireItem :=
  List.zipWith (fun v x => WireItem.wireByte v true [x]) vs xs

theorem byteItems_cons (v : Byte) (vs : List Byte) (x : Bit) (xs : List Bit) :
    byteItems (v :: vs) (x :: xs) = WireItem.wireByte v true [x] :: byteItems vs xs := rfl

/-- R105, R111: the events of a frame's bytes are their wire bytes, in order. -/
theorem walk_bytesEvents {vs : List Byte} {xs : List Bit} (h : xs.length = vs.length) (d : Drive)
    (items : List WireItem) :
    ∃ d', (bytesEvents vs xs).foldl WireWalk.next (frameWalk d [] items) =
      frameWalk d' [] (items ++ byteItems vs xs) := by
  induction vs generalizing xs d items with
  | nil => exact ⟨d, by simp [bytesEvents, byteItems]⟩
  | cons v vs ih =>
    obtain ⟨x, xs, rfl⟩ := List.exists_cons_of_length_eq_add_one h
    obtain ⟨d', hwalk⟩ := ih (Nat.succ.inj h) .released (items ++ [WireItem.wireByte v true [x]])
    refine ⟨d', ?_⟩
    rw [bytesEvents_cons, List.foldl_append, walk_byteEvents, hwalk, byteItems_cons, ← List.append_cons]

/-- R107, R111: STOP's events after whole bytes are a STOP condition, and its clock-high period is no bit slot. -/
theorem walk_stopEvents (d : Drive) (items : List WireItem) :
    (stopEvents.foldl WireWalk.next (frameWalk d [] items)).endPeriod.items = items ++ [WireItem.stopCondition] := by
  simp only [stopEvents, commandEvents, List.foldl_cons, List.foldl_nil, next_q]
  rw [next_sda_of_scl_low (w := frameWalk d [] items) rfl, next_releaseScl_of_low rfl]
  exact endPeriod_items_of_releaseSda rfl rfl

/-! ### What is decoded of a frame -/

/-- R111: START and a byte, whatever is logged before. -/
theorem wireItems_start_byte (log : List Event) (o : Config.ReleaseOrder) (v : Byte) (x : Bit) :
    ∃ before, (wireWalk log).items <+: before ∧
      wireItems (log ++ (startEvents o ++ byteEvents v x)) =
        before ++ [WireItem.startCondition, WireItem.wireByte v true [x]] := by
  obtain ⟨before, hprefix, hstart⟩ := walk_startEvents o (wireWalk log)
  refine ⟨before, hprefix, ?_⟩
  rw [wireItems, wireDecode, wireWalk_append, List.foldl_append, hstart, walk_byteEvents]
  simp [WireWalk.endPeriod, frameWalk]

/-- R111: a frame of whole bytes, whatever is logged before. -/
theorem wireItems_frame (log : List Event) (o : Config.ReleaseOrder) {vs : List Byte} {xs : List Bit}
    (h : xs.length = vs.length) :
    ∃ before, (wireWalk log).items <+: before ∧
      wireItems (log ++ frameEvents o vs xs) = before ++ [WireItem.startCondition] ++
        byteItems vs xs ++ [WireItem.stopCondition] := by
  obtain ⟨before, hprefix, hstart⟩ := walk_startEvents o (wireWalk log)
  obtain ⟨d, hbytes⟩ := walk_bytesEvents h .low (before ++ [WireItem.startCondition])
  refine ⟨before, hprefix, ?_⟩
  rw [wireItems, wireDecode, wireWalk_append, frameEvents, List.foldl_append, List.foldl_append, hstart, hbytes,
    walk_stopEvents]

/-- R111: the bytes of the frame begun last, where no condition but a STOP condition follows. -/
theorem wireFrames_getLast? (before rest : List WireItem) (h : wireFrames rest = []) :
    (wireFrames (before ++ WireItem.startCondition :: rest)).getLast? = some (wireFrames.wireBytes rest) := by
  induction before with
  | nil => rw [List.nil_append, wireFrames, h]; rfl
  | cons item before ih =>
    cases item with
    | startCondition => rw [List.cons_append, wireFrames, List.getLast?_cons, ih, Option.getD_some]
    | _ => exact ih

/-- The wire bytes of a frame's items, up to its STOP condition, begin no frame and are the bytes written. -/
theorem wireFrames_bytes {vs : List Byte} {xs : List Bit} (h : xs.length = vs.length) :
    wireFrames (byteItems vs xs ++ [WireItem.stopCondition]) = [] ∧
      wireFrames.wireBytes (byteItems vs xs ++ [WireItem.stopCondition]) = vs := by
  induction vs generalizing xs with
  | nil => exact ⟨rfl, rfl⟩
  | cons v vs ih =>
    obtain ⟨x, xs, rfl⟩ := List.exists_cons_of_length_eq_add_one h
    obtain ⟨hframes, hbytes⟩ := ih (Nat.succ.inj h)
    exact ⟨hframes, congrArg (v :: ·) hbytes⟩

/-! ### The clock-high period under a low clock -/

/-- R111: a clock-high period ends with the clock. -/
def NoPeriodUnderLowClock (w : WireWalk) : Prop := w.lines.scl = .low → w.period = none

theorem addSlot_period (b : BitSlot) (w : WireWalk) : (w.addSlot b).period = w.period := by
  unfold WireWalk.addSlot
  split
  · split <;> rfl
  · rfl

theorem endPeriod_period (w : WireWalk) : w.endPeriod.period = none := by
  unfold WireWalk.endPeriod
  split
  · assumption
  · dsimp only
    split
    · rfl
    · rw [addSlot_period]

theorem next_noPeriodUnderLowClock {w : WireWalk} (h : NoPeriodUnderLowClock w) (e : Event) :
    NoPeriodUnderLowClock (w.next e) := by
  intro hscl
  cases e with
  | act l d =>
    cases l with
    | scl =>
      obtain rfl : d = .low := hscl
      exact endPeriod_period w
    | sda =>
      have hlow : w.lines.scl = .low := hscl
      rw [next_sda_of_scl_low hlow]
      exact h hlow
  | smp b => simp [WireWalk.next, WireWalk.addSample, h hscl]
  | _ => exact h hscl

theorem wireWalk_noPeriodUnderLowClock (log : List Event) : NoPeriodUnderLowClock (wireWalk log) := by
  suffices ∀ w, NoPeriodUnderLowClock w → NoPeriodUnderLowClock (log.foldl WireWalk.next w) from
    this _ fun _ => rfl
  induction log with
  | nil => exact fun _ => id
  | cons e es ih => exact fun w h => ih _ (next_noPeriodUnderLowClock h e)

/-- R111: with the clock low, nothing is open at the end of the log. -/
theorem wireItems_of_scl_low {log : List Event} (h : (wireWalk log).lines.scl = .low) :
    wireItems log = (wireWalk log).items := by
  rw [wireItems, wireDecode, WireWalk.endPeriod, wireWalk_noPeriodUnderLowClock log h]

/-- R21: where the log explains the lines, the harness's drive states are the machine's. -/
theorem wireWalk_lines_of_explains {s : State} (h : Safety.LogExplainsLines s) : (wireWalk s.log).lines = linesOf s :=
  (wireWalk_lines s.log).trans h.1.symm

/-- R107, I11: STOP on an idle bus is a START and a STOP condition. -/
theorem walk_stopEvents_idle {w : WireWalk} (hlines : w.lines = ⟨.released, .released⟩) (hgroup : w.group = []) :
    (stopEvents.foldl WireWalk.next w).endPeriod.items =
      w.items ++ [WireItem.startCondition, WireItem.stopCondition] := by
  simp only [stopEvents, commandEvents, List.foldl_cons, List.foldl_nil, next_q]
  rw [next_driveLowSda_of_released hlines, next_releaseScl_of_released rfl, endPeriod_items_of_releaseSda rfl rfl]
  simp [WireWalk.condition, hgroup]

/-! ### The obligations -/

/-- Settles O54: the walk along START and one byte; the acknowledgment is the sample's complement. -/
theorem wireYieldsTheByteWritten : Obligations.WireYieldsTheByteWritten := by
  intro v s
  obtain ⟨before, hprefix, hitems⟩ :=
    wireItems_start_byte s.log s.releaseOrder v (envBit (nextState .start s))
  refine ⟨nextState (.writeByte v) (nextState .start s), before, _, ?_, ?_, hprefix, rfl⟩
  · rw [execAll_cons (exec_eq_nextState .start s), execAll_cons (exec_eq_nextState _ _), execAll_nil]
  · refine Eq.trans ?_ hitems
    rw [← List.append_assoc]
    rfl

/-- Settles O55: the walk along a frame, and the bytes between its two conditions. -/
theorem frameIsReadAsItsBytes : Obligations.FrameIsReadAsItsBytes := by
  intro vs s
  obtain ⟨t, xs, hrun, hlen, hlog, -⟩ := execAll_frame vs s
  obtain ⟨before, hprefix, hitems⟩ := wireItems_frame s.log s.releaseOrder hlen
  obtain ⟨hframes, hbytes⟩ := wireFrames_bytes hlen
  rw [← hlog] at hitems
  refine ⟨t, before, xs, hrun, hlen, hitems, hprefix, ?_⟩
  rw [hitems, List.append_assoc, List.append_assoc, List.singleton_append, wireFrames_getLast? _ _ hframes, hbytes]

/-- Settles O56: the walk along START from a low clock, nothing being open before it or after. -/
theorem repeatedStartAddsOneCondition : Obligations.RepeatedStartAddsOneCondition := by
  intro s hlog horder hscl hgroup
  have hlow : (wireWalk s.log).lines.scl = .low := by rw [wireWalk_lines_of_explains hlog]; exact hscl
  refine ⟨_, exec_start s, ?_⟩
  rw [wireItems_of_scl_low hlow, wireItems, wireDecode, wireWalk_append, horder]
  exact congrArg (fun w : WireWalk => w.endPeriod.items) (walk_start hlow hgroup)

/-- Settles O57: the walk along STOP from an idle bus. -/
theorem stopOnIdleBusIsEmptyPair : Obligations.StopOnIdleBusIsEmptyPair := by
  intro s hlog hlines hgroup
  refine ⟨_, exec_stop s, ?_⟩
  rw [wireItems, wireDecode, wireWalk_append]
  exact walk_stopEvents_idle ((wireWalk_lines_of_explains hlog).trans hlines) hgroup

end Sys2Proof.Machine
end
